-- ==== Sys2Proof/Word.lean ====
section
/-! DEFINITION. The word types of the CORE (spec 00_scope.md R6, 10_state.md R21 to R25, 30_encoding.md R71). -/

namespace Sys2Proof

/-- An 8-bit value: a general register, a byte of memory, a timer (XLEN, R6). -/
abbrev Byte := BitVec 8

/-- A 16-bit value: `PC`, `I`, a stack entry, an instruction word (ALEN, R6; R70). -/
abbrev Word := BitVec 16

/-- A 4-bit field of an instruction word: a register number or a sprite height (R71). -/
abbrev Nibble := BitVec 4

/-- The 12-bit address field `nnn` of an instruction word (R71). -/
abbrev Addr12 := BitVec 12

/-- A 4-bit field always names one of the sixteen registers or keys. -/
theorem nibble_lt (x : Nibble) : x.toNat < 16 := x.isLt

end Sys2Proof
end

