-- ==== Sys2Proof/Syntax.lean ====
section
/-! DEFINITION. The 34 instructions of spec 30_encoding.md R75, one constructor per row of spec/opcode_table.json,
in the table's order. Every operand has exactly the width of its field (R71, R73), so that there is no term of this
type that no word encodes. -/

namespace Sys2Proof

/-- An instruction: `x`, `y` name registers, `kk` is the 8-bit immediate, `nnn` the 12-bit address, `n` the sprite
height (R73). -/
inductive Instr where
  /-- `00E0` CLS -/
  | cls
  /-- `00EE` RET -/
  | ret
  /-- `1nnn` JP -/
  | jp (nnn : Addr12)
  /-- `2nnn` CALL -/
  | call (nnn : Addr12)
  /-- `3xkk` SE_IMM -/
  | seImm (x : Nibble) (kk : Byte)
  /-- `4xkk` SNE_IMM -/
  | sneImm (x : Nibble) (kk : Byte)
  /-- `5xy0` SE_REG -/
  | seReg (x y : Nibble)
  /-- `6xkk` LD_IMM -/
  | ldImm (x : Nibble) (kk : Byte)
  /-- `7xkk` ADD_IMM -/
  | addImm (x : Nibble) (kk : Byte)
  /-- `8xy0` LD_REG -/
  | ldReg (x y : Nibble)
  /-- `8xy1` OR -/
  | or (x y : Nibble)
  /-- `8xy2` AND -/
  | and (x y : Nibble)
  /-- `8xy3` XOR -/
  | xor (x y : Nibble)
  /-- `8xy4` ADD_REG -/
  | addReg (x y : Nibble)
  /-- `8xy5` SUB -/
  | sub (x y : Nibble)
  /-- `8xy6` SHR -/
  | shr (x y : Nibble)
  /-- `8xy7` SUBN -/
  | subn (x y : Nibble)
  /-- `8xyE` SHL -/
  | shl (x y : Nibble)
  /-- `9xy0` SNE_REG -/
  | sneReg (x y : Nibble)
  /-- `Annn` LD_I -/
  | ldI (nnn : Addr12)
  /-- `Bnnn` JP_V0 -/
  | jpV0 (nnn : Addr12)
  /-- `Cxkk` RND -/
  | rnd (x : Nibble) (kk : Byte)
  /-- `Dxyn` DRW -/
  | drw (x y n : Nibble)
  /-- `Ex9E` SKP -/
  | skp (x : Nibble)
  /-- `ExA1` SKNP -/
  | sknp (x : Nibble)
  /-- `Fx07` LD_VX_DT -/
  | ldVxDt (x : Nibble)
  /-- `Fx0A` LD_VX_K -/
  | ldVxK (x : Nibble)
  /-- `Fx15` LD_DT_VX -/
  | ldDtVx (x : Nibble)
  /-- `Fx18` LD_ST_VX -/
  | ldStVx (x : Nibble)
  /-- `Fx1E` ADD_I -/
  | addI (x : Nibble)
  /-- `Fx29` LD_F -/
  | ldF (x : Nibble)
  /-- `Fx33` LD_B -/
  | ldB (x : Nibble)
  /-- `Fx55` LD_MEM_VX -/
  | ldMemVx (x : Nibble)
  /-- `Fx65` LD_VX_MEM -/
  | ldVxMem (x : Nibble)
  deriving DecidableEq, Repr

/-- The mnemonic of an instruction in spec/opcode_table.json, the argument of COST (00_scope.md R7). -/
def Instr.mnemonic : Instr → String
  | .cls => "CLS"
  | .ret => "RET"
  | .jp _ => "JP"
  | .call _ => "CALL"
  | .seImm _ _ => "SE_IMM"
  | .sneImm _ _ => "SNE_IMM"
  | .seReg _ _ => "SE_REG"
  | .ldImm _ _ => "LD_IMM"
  | .addImm _ _ => "ADD_IMM"
  | .ldReg _ _ => "LD_REG"
  | .or _ _ => "OR"
  | .and _ _ => "AND"
  | .xor _ _ => "XOR"
  | .addReg _ _ => "ADD_REG"
  | .sub _ _ => "SUB"
  | .shr _ _ => "SHR"
  | .subn _ _ => "SUBN"
  | .shl _ _ => "SHL"
  | .sneReg _ _ => "SNE_REG"
  | .ldI _ => "LD_I"
  | .jpV0 _ => "JP_V0"
  | .rnd _ _ => "RND"
  | .drw _ _ _ => "DRW"
  | .skp _ => "SKP"
  | .sknp _ => "SKNP"
  | .ldVxDt _ => "LD_VX_DT"
  | .ldVxK _ => "LD_VX_K"
  | .ldDtVx _ => "LD_DT_VX"
  | .ldStVx _ => "LD_ST_VX"
  | .addI _ => "ADD_I"
  | .ldF _ => "LD_F"
  | .ldB _ => "LD_B"
  | .ldMemVx _ => "LD_MEM_VX"
  | .ldVxMem _ => "LD_VX_MEM"

end Sys2Proof
end

