-- ==== Sys2Proof/Decode.lean ====
section
/-! DEFINITION. The decoder of spec 30_encoding.md R71, R74 and R77 and, after it, the encoder of R72 and R75. -/

namespace Sys2Proof

/-- Why bytes are no instruction (60_exceptions.md R211). -/
inductive DecodeError where
  /-- Fewer than two bytes: no word to decode (R70). Never met by a fetch, which always reads two bytes. -/
  | truncated
  /-- An opcode requiring a fixed nibble that does not match: families 0, 5 and 9. -/
  | fixedNibble (w : Word)
  /-- An unrecognized secondary-dispatch value: families 8, E and F. -/
  | secondaryDispatch (w : Word)
  deriving DecidableEq, Repr

/-- `op`, bits 15:12 (R71). -/
def Word.fieldOp (w : Word) : Nibble := w.extractLsb' 12 4

/-- `x`, bits 11:8 (R71). -/
def Word.fieldX (w : Word) : Nibble := w.extractLsb' 8 4

/-- `y`, bits 7:4 (R71). -/
def Word.fieldY (w : Word) : Nibble := w.extractLsb' 4 4

/-- `n`, bits 3:0 (R71). -/
def Word.fieldN (w : Word) : Nibble := w.extractLsb' 0 4

/-- `kk`, bits 7:0 (R71). -/
def Word.fieldKk (w : Word) : Byte := w.extractLsb' 0 8

/-- `nnn`, bits 11:0 (R71). -/
def Word.fieldNnn (w : Word) : Addr12 := w.extractLsb' 0 12

/-- Secondary dispatch of family 0 on `nnn` (R74). -/
def decodeFamily0 (w : Word) : Except DecodeError Instr :=
  if Word.fieldNnn w = 0x0E0#12 then .ok .cls
  else if Word.fieldNnn w = 0x0EE#12 then .ok .ret
  else .error (.fixedNibble w)

/-- Families 5 and 9 need `n = 0` (R74, R77). -/
def decodeNeedsZero (w : Word) (i : Instr) : Except DecodeError Instr :=
  if Word.fieldN w = 0x0#4 then .ok i else .error (.fixedNibble w)

/-- Secondary dispatch of family 8 on `n` (R74). -/
def decodeFamily8 (w : Word) : Except DecodeError Instr :=
  let x := Word.fieldX w
  let y := Word.fieldY w
  if Word.fieldN w = 0x0#4 then .ok (.ldReg x y)
  else if Word.fieldN w = 0x1#4 then .ok (.or x y)
  else if Word.fieldN w = 0x2#4 then .ok (.and x y)
  else if Word.fieldN w = 0x3#4 then .ok (.xor x y)
  else if Word.fieldN w = 0x4#4 then .ok (.addReg x y)
  else if Word.fieldN w = 0x5#4 then .ok (.sub x y)
  else if Word.fieldN w = 0x6#4 then .ok (.shr x y)
  else if Word.fieldN w = 0x7#4 then .ok (.subn x y)
  else if Word.fieldN w = 0xE#4 then .ok (.shl x y)
  else .error (.secondaryDispatch w)

/-- Secondary dispatch of family E on `kk` (R74). -/
def decodeFamilyE (w : Word) : Except DecodeError Instr :=
  if Word.fieldKk w = 0x9E#8 then .ok (.skp (Word.fieldX w))
  else if Word.fieldKk w = 0xA1#8 then .ok (.sknp (Word.fieldX w))
  else .error (.secondaryDispatch w)

/-- Secondary dispatch of family F on `kk` (R74). -/
def decodeFamilyF (w : Word) : Except DecodeError Instr :=
  let x := Word.fieldX w
  if Word.fieldKk w = 0x07#8 then .ok (.ldVxDt x)
  else if Word.fieldKk w = 0x0A#8 then .ok (.ldVxK x)
  else if Word.fieldKk w = 0x15#8 then .ok (.ldDtVx x)
  else if Word.fieldKk w = 0x18#8 then .ok (.ldStVx x)
  else if Word.fieldKk w = 0x1E#8 then .ok (.addI x)
  else if Word.fieldKk w = 0x29#8 then .ok (.ldF x)
  else if Word.fieldKk w = 0x33#8 then .ok (.ldB x)
  else if Word.fieldKk w = 0x55#8 then .ok (.ldMemVx x)
  else if Word.fieldKk w = 0x65#8 then .ok (.ldVxMem x)
  else .error (.secondaryDispatch w)

/-- The decoder on an instruction word: primary dispatch on `op`, secondary in the families that need one
(R74, R75). -/
def decodeWord (w : Word) : Except DecodeError Instr :=
  let x := Word.fieldX w
  let y := Word.fieldY w
  let kk := Word.fieldKk w
  let nnn := Word.fieldNnn w
  if Word.fieldOp w = 0x0#4 then decodeFamily0 w
  else if Word.fieldOp w = 0x1#4 then .ok (.jp nnn)
  else if Word.fieldOp w = 0x2#4 then .ok (.call nnn)
  else if Word.fieldOp w = 0x3#4 then .ok (.seImm x kk)
  else if Word.fieldOp w = 0x4#4 then .ok (.sneImm x kk)
  else if Word.fieldOp w = 0x5#4 then decodeNeedsZero w (.seReg x y)
  else if Word.fieldOp w = 0x6#4 then .ok (.ldImm x kk)
  else if Word.fieldOp w = 0x7#4 then .ok (.addImm x kk)
  else if Word.fieldOp w = 0x8#4 then decodeFamily8 w
  else if Word.fieldOp w = 0x9#4 then decodeNeedsZero w (.sneReg x y)
  else if Word.fieldOp w = 0xA#4 then .ok (.ldI nnn)
  else if Word.fieldOp w = 0xB#4 then .ok (.jpV0 nnn)
  else if Word.fieldOp w = 0xC#4 then .ok (.rnd x kk)
  else if Word.fieldOp w = 0xD#4 then .ok (.drw x y (Word.fieldN w))
  else if Word.fieldOp w = 0xE#4 then decodeFamilyE w
  else decodeFamilyF w

/-- The instruction word of two bytes, the one at the lower address in the high half (20_memory.md R51, R52). -/
def wordOfBytes (first second : Byte) : Word := first ++ second

/-- The byte of a word that lies at the lower address (R51). -/
def Word.firstByte (w : Word) : Byte := w.extractLsb' 8 8

/-- The byte of a word that lies at the higher address (R51). -/
def Word.secondByte (w : Word) : Byte := w.extractLsb' 0 8

/-- The decoder on bytes, total: one instruction and the rest, or a named error (R70, R74). -/
def decode : List Byte → Except DecodeError (Instr × List Byte)
  | first :: second :: rest =>
    match decodeWord (wordOfBytes first second) with
    | .ok i => .ok (i, rest)
    | .error e => .error e
  | _ => .error .truncated

/-- Format A (R72). -/
def formatA (op : Nibble) (nnn : Addr12) : Word := op ++ nnn

/-- Format I, and format X with `kk` a function code (R72). -/
def formatI (op x : Nibble) (kk : Byte) : Word := op ++ x ++ kk

/-- Format R with `n` a function code, and format D with `n` the height (R72). -/
def formatR (op x y n : Nibble) : Word := op ++ x ++ y ++ n

/-- The encoder: the word of an instruction, row by row of R75. -/
def encode : Instr → Word
  | .cls => 0x00E0#16
  | .ret => 0x00EE#16
  | .jp nnn => formatA 0x1#4 nnn
  | .call nnn => formatA 0x2#4 nnn
  | .seImm x kk => formatI 0x3#4 x kk
  | .sneImm x kk => formatI 0x4#4 x kk
  | .seReg x y => formatR 0x5#4 x y 0x0#4
  | .ldImm x kk => formatI 0x6#4 x kk
  | .addImm x kk => formatI 0x7#4 x kk
  | .ldReg x y => formatR 0x8#4 x y 0x0#4
  | .or x y => formatR 0x8#4 x y 0x1#4
  | .and x y => formatR 0x8#4 x y 0x2#4
  | .xor x y => formatR 0x8#4 x y 0x3#4
  | .addReg x y => formatR 0x8#4 x y 0x4#4
  | .sub x y => formatR 0x8#4 x y 0x5#4
  | .shr x y => formatR 0x8#4 x y 0x6#4
  | .subn x y => formatR 0x8#4 x y 0x7#4
  | .shl x y => formatR 0x8#4 x y 0xE#4
  | .sneReg x y => formatR 0x9#4 x y 0x0#4
  | .ldI nnn => formatA 0xA#4 nnn
  | .jpV0 nnn => formatA 0xB#4 nnn
  | .rnd x kk => formatI 0xC#4 x kk
  | .drw x y n => formatR 0xD#4 x y n
  | .skp x => formatI 0xE#4 x 0x9E#8
  | .sknp x => formatI 0xE#4 x 0xA1#8
  | .ldVxDt x => formatI 0xF#4 x 0x07#8
  | .ldVxK x => formatI 0xF#4 x 0x0A#8
  | .ldDtVx x => formatI 0xF#4 x 0x15#8
  | .ldStVx x => formatI 0xF#4 x 0x18#8
  | .addI x => formatI 0xF#4 x 0x1E#8
  | .ldF x => formatI 0xF#4 x 0x29#8
  | .ldB x => formatI 0xF#4 x 0x33#8
  | .ldMemVx x => formatI 0xF#4 x 0x55#8
  | .ldVxMem x => formatI 0xF#4 x 0x65#8

/-- The two bytes of an instruction as memory holds them (R51). -/
def encodeBytes (i : Instr) : List Byte :=
  [Word.firstByte (encode i), Word.secondByte (encode i)]

/-- The word that spec/opcode_table.json numbers `w` when it gives the row `nbits` bits: bit 0 is the least
significant bit of the 16-bit word, and the bits from `nbits` up are 0. -/
def tableWord (nbits w : Nat) : Word := BitVec.ofNat 16 (w % 2 ^ nbits)

/-- The instruction the decoder reads from a table word laid out as memory holds it, first byte first (R51). -/
def decodeTableWord (nbits w : Nat) : Option Instr :=
  match decode [Word.firstByte (tableWord nbits w), Word.secondByte (tableWord nbits w)] with
  | .ok (i, _) => some i
  | .error _ => none

end Sys2Proof
end

