-- ==== Sys2Proof/Config.lean ====
section
/-! DEFINITION. What is fixed for the machine (spec 00_scope.md R6) and the values the spec leaves open
(R7): the draws of RND and the instruction costs. The two open ones have no body, so no proof can see what they
are. FONT, the third parameter of R7, has a default (Machine/Font.lean) and is the field `State.font`; the fourth,
BUDGET_W, has the default of unbounded integers. -/

namespace Sys2Proof.Config

/-- MEM_SIZE of R6. -/
abbrev memSize : Nat := 4096

/-- FONT_BASE of R6. -/
abbrev fontBase : Nat := 0x050

/-- FONT_GLYPHS times FONT_GLYPH_BYTES of R6: the font occupies 0x050 to 0x09F. -/
abbrev fontBytes : Nat := 80

/-- PROG_BASE of R6: the load address, and the value of `PC` after LOAD. -/
abbrev progBase : Nat := 0x200

/-- PROG_MAX of R6: the largest program LOAD accepts. -/
abbrev progMax : Nat := 3584

/-- TIMER_PERIOD_US of R6: added to the timer accumulator at each tick (60_exceptions.md R224). -/
abbrev timerPeriod : Int := 16667

/-- FREE VALUE (safe; log entry 4). The parameter RAND of R7: `draw k` is the byte the k-th RND draws, under no law
(43_random.md R160, R161). -/
opaque draw : Nat → Byte

/-- FREE VALUE (safe; log entry 3). The parameter COST of R7, less its bound: COST(m) is `costBeyondOne m + 1`, so
that COST(m) ≥ 1 and nothing more is known of it. The argument is the mnemonic of the opcode table. -/
opaque costBeyondOne : String → Nat

end Sys2Proof.Config
end

