-- ==== Sys2Proof/Machine/Font.lean ====
section
/-! DEFINITION. The default of the open parameter FONT (spec 00_scope.md R7): the table of 10_state.md R33. The
parameter itself is `State.font`, so that what is said of every state is said of every font. -/

namespace Sys2Proof.Machine

/-- Glyphs 0 to 7 of the font (10_state.md R33; log entry 2). -/
def fontLow : List Byte :=
  [0xF0, 0x90, 0x90, 0x90, 0xF0, 0x20, 0x60, 0x20, 0x20, 0x70,
   0xF0, 0x10, 0xF0, 0x80, 0xF0, 0xF0, 0x10, 0xF0, 0x10, 0xF0,
   0x90, 0x90, 0xF0, 0x10, 0x10, 0xF0, 0x80, 0xF0, 0x10, 0xF0,
   0xF0, 0x80, 0xF0, 0x90, 0xF0, 0xF0, 0x10, 0x20, 0x40, 0x40]

/-- Glyphs 8 to F of the font (R33; log entry 2). -/
def fontHigh : List Byte :=
  [0xF0, 0x90, 0xF0, 0x90, 0xF0, 0xF0, 0x90, 0xF0, 0x10, 0xF0,
   0xF0, 0x90, 0xF0, 0x90, 0x90, 0xE0, 0x90, 0xE0, 0x90, 0xE0,
   0xF0, 0x80, 0x80, 0x80, 0xF0, 0xE0, 0x90, 0x90, 0x90, 0xE0,
   0xF0, 0x80, 0xF0, 0x80, 0xF0, 0xF0, 0x80, 0xF0, 0x80, 0x80]

/-- The default of FONT (00_scope.md R7, 10_state.md R33). -/
def fontTable : List Byte := fontLow ++ fontHigh

/-- The default of FONT as the 80 bytes that `State.font` holds. -/
def defaultFont : Vector Byte 80 := ⟨fontTable.toArray, rfl⟩

end Sys2Proof.Machine
end

