-- ==== Sys2Proof/Machine/State.lean ====
section
/-! DEFINITION. The Machine State of spec 10_state.md R20, element by element, as plain data, with the
parameter FONT and the two fields of the model's own (the draws consumed and the host transactions waiting), and its
value after reset. -/

namespace Sys2Proof.Machine

/-- The run state of 10_state.md R30. -/
inductive RunState where
  | init
  | running
  | awaitingKey
  | stopped
  deriving DecidableEq, Repr

/-- The fatal conditions of 60_exceptions.md R210. -/
inductive FatalCause where
  | badOpcode
  | stackOverflow
  | stackUnderflow
  deriving DecidableEq, Repr

/-- The diagnostic a fatal condition leaves (10_state.md R34). -/
structure Diag where
  valid : Bool
  cause : BitVec 2
  addr : Word
  word : Word
  deriving DecidableEq, Repr

/-- The registers of the Timer Unit (10_state.md R28, R32; 60_exceptions.md R223): the accumulator in microseconds
and the two countdown values. -/
structure TimerUnit where
  acc : Int
  dt : Byte
  st : Byte
  deriving DecidableEq, Repr

/-- What a KEY transaction says of its key (60_exceptions.md R221). -/
inductive KeyEvent where
  | pressed
  | released
  deriving DecidableEq, Repr

/-- The argument of SPEED (47_sequencer_scheduler.md R197). -/
inductive SpeedChange where
  | up
  | down
  deriving DecidableEq, Repr

/-- A host transaction (60_exceptions.md R219). `load` carries the byte buffer, whose length is the transaction's
length; `key` any integer, since values outside 0 to 15 may be sent and are ignored; `frame` a non-negative number
of elapsed microseconds. -/
inductive Transaction where
  | load (prog : List Byte)
  | key (k : Int) (ev : KeyEvent)
  | frame (elapsed : Nat)
  | speed (change : SpeedChange)
  deriving DecidableEq, Repr

/-- Memory as (address, byte) cells; what an address that is not listed reads as is `unlistedByte`, and the
canonical form is `Memory.wf` (Machine/Ops.lean). -/
abbrev Memory := List Host.Cell

/-- The Machine State of 10_state.md R20, and below it the model's own two fields and the parameter FONT. -/
structure State where
  /-- `V[0..15]`; `VF` is `V[15]` (R21, R22). -/
  v : Vector Byte 16
  /-- `PC` (R23). -/
  pc : Word
  /-- `I` (R24). -/
  i : Word
  /-- `stack[0..15]` (R25). -/
  stack : Vector Word 16
  /-- `SP`, the number of valid stack entries, 0 to 16 (R25). -/
  sp : Fin 17
  /-- `mem[0..4095]` (R26). -/
  mem : Memory
  /-- `display[0..255]` (R27). -/
  display : Vector Byte 256
  /-- `acc`, `DT`, `ST` (R28, R32). -/
  timers : TimerUnit
  /-- `keys[0..15]` (R29). -/
  keys : Vector Bool 16
  /-- `state` (R30). -/
  runState : RunState
  /-- `key_dest` (R31). -/
  keyDest : Nibble
  /-- `budget` (R32). -/
  budget : Int
  /-- `speed`, 0 to 7 (R32). -/
  speed : Fin 8
  /-- `diag` (R34). -/
  diag : Diag
  /-- The model's own: how many draws RND has consumed (log entry 4). -/
  draws : Nat
  /-- The model's own: the host transactions issued and not yet taken, oldest first (log entry 5). -/
  inbox : List Transaction
  /-- The parameter FONT of 00_scope.md R7, which LOAD copies to 0x050 and nothing writes (10_state.md R38; log
  entry 2). It stands here so that a claim about every state is a claim about every font. -/
  font : Vector Byte 80
  deriving DecidableEq, Repr

/-- Why a step stops with a fault: never. The three fatal conditions are states the machine goes to
(60_exceptions.md R213), every address is legal and nothing else faults (R217; 70_reset_and_hazards.md R252), so no
meaning raises a fault and the type has no constructor. -/
inductive Fault where
  deriving DecidableEq, Repr

/-- Why a step is refused. -/
inductive Refusal where
  /-- Raised only by an arm of `exec` for an instruction with no meaning yet (none is left): safe, since the model
  stops where the hardware goes on. -/
  | notModelled (mnemonic : String)
  deriving DecidableEq, Repr

/-- No diagnostic (10_state.md R34). -/
def Diag.none : Diag := { valid := false, cause := 0, addr := 0, word := 0 }

/-- The state after reset: the LOAD column of 10_state.md R37 with an empty program (log entry 1), FONT at its
default (log entry 2). No cell of memory is listed: it holds that font and zeros. -/
def State.reset : State :=
  { v := Vector.replicate 16 0
    pc := 0x0200
    i := 0
    stack := Vector.replicate 16 0
    sp := 0
    mem := []
    display := Vector.replicate 256 0
    timers := { acc := 0, dt := 0, st := 0 }
    keys := Vector.replicate 16 false
    runState := .running
    keyDest := 0
    budget := 0
    speed := 0
    diag := Diag.none
    draws := 0
    inbox := []
    font := defaultFont }

end Sys2Proof.Machine
end

