-- ==== Sys2Proof/Machine/Ops.lean ====
section
/-! DEFINITION. The named operations over registers, memory, the program counter, the stack, the framebuffer, the
key latches and the Timer Unit; taking a fatal condition, which is the only trap entry, and LOAD, the only way back
(spec 60_exceptions.md R213, R215). -/

namespace Sys2Proof.Machine

/-! ### General registers (10_state.md R21) -/

/-- `V[x]`. -/
def State.getV (s : State) (x : Nibble) : Byte := s.v[x.toNat]'(nibble_lt x)

/-- `V[x] <- b`. -/
def State.setV (s : State) (x : Nibble) (b : Byte) : State :=
  { s with v := s.v.set x.toNat b (nibble_lt x) }

/-- `VF`, the number of the flag register (R22). -/
abbrev vf : Nibble := 0xF#4

/-! ### Memory (20_memory.md R50 to R57) -/

/-- What an address reads as while nothing is listed for it: the contents after LOAD with an empty program and the
default FONT, the font at 0x050 to 0x09F and 0 elsewhere (20_memory.md R57, 10_state.md R37; log entry 2). With another
font LOAD lists the bytes that differ. -/
def unlistedByte (a : Nat) : Byte :=
  if Config.fontBase ≤ a ∧ a < Config.fontBase + Config.fontBytes then
    fontTable.getD (a - Config.fontBase) 0
  else 0

/-- The byte at an address: the first cell listed for it, else what it reads as unlisted. -/
def Memory.read : Memory → Nat → Byte
  | [], a => unlistedByte a
  | (k, b) :: rest, a => if k = a then b else Memory.read rest a

/-- A cell put into its place among cells of rising address. -/
def Memory.insert (c : Host.Cell) : Memory → Memory
  | [] => [c]
  | d :: rest => if c.1 < d.1 then c :: d :: rest else d :: Memory.insert c rest

/-- The byte at an address replaced; a cell is listed only where it differs from what the address reads as
unlisted. -/
def Memory.write (m : Memory) (a : Nat) (b : Byte) : Memory :=
  let others := m.filter fun c => c.1 ≠ a
  if b = unlistedByte a then others else Memory.insert (a, b) others

/-- The bytes written at consecutive addresses from `a` up. -/
def Memory.writeBytes : Memory → Nat → List Byte → Memory
  | m, _, [] => m
  | m, a, b :: bs => Memory.writeBytes (Memory.write m a b) (a + 1) bs

/-- The canonical form: strictly rising addresses inside the 4096 bytes, and no cell equal to what its address
reads as unlisted. -/
abbrev Memory.wf (m : Memory) : Prop :=
  m.Pairwise (fun c d => c.1 < d.1) ∧ ∀ c ∈ m, c.1 < Config.memSize ∧ c.2 ≠ unlistedByte c.1

/-- The memory address of a 16-bit address: the mask `& 0xFFF` of 00_scope.md R10. -/
def memAddress (a : Word) : Nat := (a &&& 0x0FFF#16).toNat

/-- `MemRead(a, 1)` (00_scope.md R10). -/
def State.memRead (s : State) (a : Word) : Byte := Memory.read s.mem (memAddress a)

/-- `MemWrite(a, 1, b)` (00_scope.md R10). -/
def State.memWrite (s : State) (a : Word) (b : Byte) : State :=
  { s with mem := Memory.write s.mem (memAddress a) b }

/-- `MemRead(PC, 2)`, the instruction fetch: each byte address masked separately (20_memory.md R52). -/
def State.fetchWord (s : State) : Word := wordOfBytes (s.memRead s.pc) (s.memRead (s.pc + 1))

/-! ### Program counter, index register, stack (10_state.md R23 to R25) -/

/-- `PC <- PC + 2`, modulo 65536: the advance before every body (47_sequencer_scheduler.md R190). -/
def State.advancePC (s : State) : State := { s with pc := s.pc + 2 }

/-- `PC <- target` (00_scope.md R11). -/
def State.setPC (s : State) (target : Word) : State := { s with pc := target }

/-- `skip` when the condition holds: the advanced `PC` gets 2 more (00_scope.md R11). -/
def State.skipIf (s : State) (c : Bool) : State := if c then { s with pc := s.pc + 2 } else s

/-- `I <- a`. -/
def State.setI (s : State) (a : Word) : State := { s with i := a }

/-- Push: `stack[SP] <- a; SP <- SP + 1`, possible while `SP < 16` (R25). -/
def State.push (s : State) (a : Word) : Option State :=
  if h : s.sp.val < 16 then
    some { s with stack := s.stack.set s.sp.val a h, sp := ⟨s.sp.val + 1, by omega⟩ }
  else none

/-- Pop: `SP <- SP - 1`, the value is `stack[SP]`, possible while `SP > 0`; the slot keeps its contents (R25). -/
def State.pop (s : State) : Option (Word × State) :=
  if h : 0 < s.sp.val then
    some (s.stack[s.sp.val - 1]'(by have := s.sp.isLt; omega),
      { s with sp := ⟨s.sp.val - 1, by have := s.sp.isLt; omega⟩ })
  else none

/-! ### Random draws (00_scope.md R11, 43_random.md R161) -/

/-- `draw8()`: a fresh free byte. -/
def State.drawnByte (s : State) : Byte := Config.draw s.draws

/-- The draw is consumed: the next RND draws another byte. -/
def State.consumeDraw (s : State) : State := { s with draws := s.draws + 1 }

/-! ### Framebuffer (10_state.md R27) -/

/-- The index of the byte that holds pixel (px, py): `py × 8 + px div 8`. -/
def pixelIndex (px : Fin 64) (py : Fin 32) : Fin 256 := ⟨py.val * 8 + px.val / 8, by omega⟩

/-- The bit of that byte: `7 − (px mod 8)`. -/
def pixelBit (px : Fin 64) : Nat := 7 - px.val % 8

/-- Is pixel (px, py) lit? -/
def State.pixel (s : State) (px : Fin 64) (py : Fin 32) : Bool :=
  (s.display[(pixelIndex px py).val]).getLsbD (pixelBit px)

/-- `display[idx][bit] <- display[idx][bit] ^ 1` for pixel (px, py). -/
def State.togglePixel (s : State) (px : Fin 64) (py : Fin 32) : State :=
  let idx := (pixelIndex px py).val
  { s with display := s.display.set idx (s.display[idx] ^^^ (1#8 <<< pixelBit px)) }

/-- All 256 bytes 0 (44_display.md R165). -/
def State.clearDisplay (s : State) : State := { s with display := Vector.replicate 256 0 }

/-! ### Key latches (10_state.md R29) -/

/-- `keys[k]`. -/
def State.getKey (s : State) (k : Nibble) : Bool := s.keys[k.toNat]'(nibble_lt k)

/-- `keys[k] <- down`. -/
def State.setKey (s : State) (k : Nibble) (down : Bool) : State :=
  { s with keys := s.keys.set k.toNat down (nibble_lt k) }

/-! ### Timer Unit (60_exceptions.md R223 to R225) and the charge (47_sequencer_scheduler.md R191) -/

/-- A countdown value after one tick: one less, and 0 stays 0 (R225). -/
def countDown (b : Byte) : Byte := if 0 < b.toNat then b - 1 else b

/-- `tick` (R225): both timers, independently. -/
def TimerUnit.tick (t : TimerUnit) : TimerUnit := { t with dt := countDown t.dt, st := countDown t.st }

/-- The loop of R224: while `acc < 0`, tick and add 16667. The first argument bounds the number of passes. -/
def TimerUnit.rearm : Nat → TimerUnit → TimerUnit
  | 0, t => t
  | k + 1, t =>
    if t.acc < 0 then
      TimerUnit.rearm k { t.tick with acc := t.tick.acc + Config.timerPeriod }
    else t

/-- How many passes bring the accumulator back to 0 or above: enough for the loop of R224 to end by its test. -/
def rearmPasses (acc : Int) : Nat := ((-acc).toNat + 16666) / 16667

/-- `TimerAdvance(d)` (R224): `acc <- acc − d`, then the loop. -/
def TimerUnit.advance (t : TimerUnit) (d : Int) : TimerUnit :=
  TimerUnit.rearm (rearmPasses (t.acc - d)) { t with acc := t.acc - d }

/-- `TimerAdvance(d)` on the machine. -/
def State.timerAdvance (s : State) (d : Int) : State := { s with timers := s.timers.advance d }

/-- `DT <- b` (46_timers.md R186). -/
def State.setDT (s : State) (b : Byte) : State := { s with timers := { s.timers with dt := b } }

/-- `ST <- b` (46_timers.md R187). -/
def State.setST (s : State) (b : Byte) : State := { s with timers := { s.timers with st := b } }

/-- COST (00_scope.md R7): at least 1 microsecond, otherwise free (log entry 3). -/
def costOf (i : Instr) : Nat := Config.costBeyondOne i.mnemonic + 1

/-- `budget <- budget − c; TimerAdvance(c)` (R191). -/
def State.charge (s : State) (c : Nat) : State :=
  { s with budget := s.budget - c, timers := s.timers.advance c }

/-- `Charge(m)` after the body of an instruction (R191). The body of LD_VX_K leaves AWAITING_KEY and a fatal
condition leaves STOPPED; neither is charged. -/
def State.chargeFor (s : State) (i : Instr) : State :=
  if s.runState = .running then s.charge (costOf i) else s

/-! ### Taking a fatal condition, and LOAD (60_exceptions.md R213, R215) -/

/-- The numeric cause codes of R210. -/
def FatalCause.code : FatalCause → BitVec 2
  | .badOpcode => 1
  | .stackOverflow => 2
  | .stackUnderflow => 3

/-- `Fatal(cause)` (R213), the only trap entry: the diagnostic records the cause, the address `a` the instruction
was fetched from and its word, and the machine is STOPPED. `PC` has already been advanced. -/
def State.fatal (s : State) (cause : FatalCause) (a w : Word) : State :=
  { s with
    diag := { valid := true, cause := cause.code, addr := a, word := w }
    runState := .stopped }

/-- What LOAD leaves in memory: zeros, the font from 0x050 and the program from 0x200 (70_reset_and_hazards.md
R241). -/
def loadedMemory (font : Vector Byte 80) (prog : List Byte) : Memory :=
  Memory.writeBytes (Memory.writeBytes [] Config.fontBase font.toList) Config.progBase prog

/-- `LOAD(prog, len)` (70_reset_and_hazards.md R241, R242): a program of at most 3584 bytes resets everything, the font
is copied to 0x050 and the program to 0x200; a longer one is rejected, which only stops a machine that was RUNNING or
AWAITING_KEY. There is no return from STOPPED but a successful LOAD (R215). The parameter FONT and the model's own
fields are no part of the Machine State and stay. -/
def State.load (s : State) (prog : List Byte) : State :=
  if prog.length ≤ Config.progMax then
    { State.reset with
      mem := loadedMemory s.font prog
      draws := s.draws
      inbox := s.inbox
      font := s.font }
  else if s.runState = .running ∨ s.runState = .awaitingKey then
    { s with runState := .stopped }
  else s

/-- The state after power-on: the other column of 10_state.md R37 (log entries 1 and 23). No font is in memory yet, so the
80 bytes of its place are listed as 0. -/
def State.powerOn : State :=
  { State.reset with
    pc := 0
    mem := Memory.writeBytes [] Config.fontBase (List.replicate Config.fontBytes 0)
    runState := .init }

end Sys2Proof.Machine
end

