-- ==== Sys2Proof/Machine/Flags.lean ====
section
/-! DEFINITION. The values `VF` receives as a side effect (spec 10_state.md R22) and the order in which result and
flag are written (41_arithmetic.md R132). -/

namespace Sys2Proof.Machine

/-- A comparison "yields 1 when true and 0 when false" (00_scope.md R8). -/
def flagByte (c : Bool) : Byte := if c then 1 else 0

/-- Carry of ADD_REG: 1 if the 9-bit sum exceeds 255 (R126). -/
def carryFlag (p q : Byte) : Byte := flagByte (decide (255 < p.toNat + q.toNat))

/-- No borrow of `p − q`: 1 if `p ≥ q` (R127, R129). -/
def noBorrowFlag (p q : Byte) : Byte := flagByte (decide (q.toNat ≤ p.toNat))

/-- The bit a right shift drops: bit 0 (R128). -/
def shiftedOutRight (b : Byte) : Byte := flagByte (b.getLsbD 0)

/-- The bit a left shift drops: bit 7 (R130). -/
def shiftedOutLeft (b : Byte) : Byte := flagByte (b.getLsbD 7)

/-- `V[x] <- result`, then `V[15] <- flag`: the flag is written last, so it wins when x is 15 (R132; log entry 10). -/
def State.setResultAndFlag (s : State) (x : Nibble) (result flag : Byte) : State :=
  (s.setV x result).setV vf flag

end Sys2Proof.Machine
end

