-- ==== Sys2Proof/Machine/Arithmetic.lean ====
section
/-! DEFINITION. Register and immediate arithmetic (spec 41_arithmetic.md): operands are read first, then `V[x]` is
written, then `VF` (R132). -/

namespace Sys2Proof.Machine

/-- LD_IMM (R120). -/
def execLdImm (x : Nibble) (kk : Byte) (s : State) : Host.Outcome State Fault Refusal :=
  .next (s.advancePC.setV x kk)

/-- ADD_IMM (R121): no flag. -/
def execAddImm (x : Nibble) (kk : Byte) (s : State) : Host.Outcome State Fault Refusal :=
  .next (s.advancePC.setV x (s.getV x + kk))

/-- LD_REG (R122). -/
def execLdReg (x y : Nibble) (s : State) : Host.Outcome State Fault Refusal :=
  .next (s.advancePC.setV x (s.getV y))

/-- OR (R123): clears `VF`. -/
def execOr (x y : Nibble) (s : State) : Host.Outcome State Fault Refusal :=
  .next (s.advancePC.setResultAndFlag x (s.getV x ||| s.getV y) 0)

/-- AND (R124): clears `VF`. -/
def execAnd (x y : Nibble) (s : State) : Host.Outcome State Fault Refusal :=
  .next (s.advancePC.setResultAndFlag x (s.getV x &&& s.getV y) 0)

/-- XOR (R125): clears `VF`. -/
def execXor (x y : Nibble) (s : State) : Host.Outcome State Fault Refusal :=
  .next (s.advancePC.setResultAndFlag x (s.getV x ^^^ s.getV y) 0)

/-- ADD_REG (R126): `VF` receives the carry. -/
def execAddReg (x y : Nibble) (s : State) : Host.Outcome State Fault Refusal :=
  .next (s.advancePC.setResultAndFlag x (s.getV x + s.getV y) (carryFlag (s.getV x) (s.getV y)))

/-- SUB (R127): `V[x] − V[y]`, `VF` receives no borrow. -/
def execSub (x y : Nibble) (s : State) : Host.Outcome State Fault Refusal :=
  .next (s.advancePC.setResultAndFlag x (s.getV x - s.getV y) (noBorrowFlag (s.getV x) (s.getV y)))

/-- SHR (R128): shifts `V[y]`, `VF` receives bit 0. -/
def execShr (x y : Nibble) (s : State) : Host.Outcome State Fault Refusal :=
  .next (s.advancePC.setResultAndFlag x (s.getV y >>> 1) (shiftedOutRight (s.getV y)))

/-- SUBN (R129): `V[y] − V[x]`, `VF` receives no borrow. -/
def execSubn (x y : Nibble) (s : State) : Host.Outcome State Fault Refusal :=
  .next (s.advancePC.setResultAndFlag x (s.getV y - s.getV x) (noBorrowFlag (s.getV y) (s.getV x)))

/-- SHL (R130): shifts `V[y]`, `VF` receives bit 7. -/
def execShl (x y : Nibble) (s : State) : Host.Outcome State Fault Refusal :=
  .next (s.advancePC.setResultAndFlag x (s.getV y <<< 1) (shiftedOutLeft (s.getV y)))

end Sys2Proof.Machine
end

