-- ==== Sys2Proof/Machine/Operands.lean ====
section
/-! DEFINITION. The operand forms of spec 30_encoding.md R73 and 42_memory_index.md R146: the address immediate, the
indexed jump target, register-indirect addresses through `I`, the digit in a register, and decimal digits. -/

namespace Sys2Proof.Machine

/-- `zext_16(nnn)` (R73). -/
def addressOperand (nnn : Addr12) : Word := nnn.setWidth 16

/-- `zext_16` of a register or of a byte (00_scope.md R8). -/
def widen (b : Byte) : Word := b.setWidth 16

/-- The register numbered `k` in a transfer of registers 0 to x (R144, R145). -/
def registerNumber (k : Nat) : Nibble := BitVec.ofNat 4 k

/-- `I + k`, the only addressing mode; `MemRead` and `MemWrite` mask it (R146). -/
def State.indexed (s : State) (k : Nat) : Word := s.i + BitVec.ofNat 16 k

/-- The hex digit or key number in `V[x]`: its low four bits (R142, R175, R176). -/
def State.digitOf (s : State) (x : Nibble) : Nibble := (s.getV x).extractLsb' 0 4

/-- The address of the glyph of a digit: `0x0050 + 5 × d` (R142). -/
def glyphAddress (d : Nibble) : Word := BitVec.ofNat 16 (Config.fontBase + 5 * d.toNat)

/-- The hundreds digit of a byte (R143). -/
def hundreds (b : Byte) : Byte := BitVec.ofNat 8 (b.toNat / 100)

/-- The tens digit of a byte (R143). -/
def tens (b : Byte) : Byte := BitVec.ofNat 8 (b.toNat / 10 % 10)

/-- The units digit of a byte (R143). -/
def units (b : Byte) : Byte := BitVec.ofNat 8 (b.toNat % 10)

end Sys2Proof.Machine
end

