-- ==== Sys2Proof/Machine/ControlFlow.lean ====
section
/-! DEFINITION. The control-flow instructions (spec 40_control_flow.md). Every meaning takes the state in which the
instruction was fetched and first advances `PC` by 2 (47_sequencer_scheduler.md R190). -/

namespace Sys2Proof.Machine

/-- RET (R100). -/
def execRet (s : State) : Host.Outcome State Fault Refusal :=
  match s.advancePC.pop with
  | some (target, t) => .next (t.setPC target)
  | none => .next (s.advancePC.fatal .stackUnderflow s.pc (encode .ret))

/-- JP (R101). -/
def execJp (nnn : Addr12) (s : State) : Host.Outcome State Fault Refusal :=
  .next (s.advancePC.setPC (addressOperand nnn))

/-- CALL (R102): pushes the advanced `PC`. -/
def execCall (nnn : Addr12) (s : State) : Host.Outcome State Fault Refusal :=
  match s.advancePC.push s.advancePC.pc with
  | some t => .next (t.setPC (addressOperand nnn))
  | none => .next (s.advancePC.fatal .stackOverflow s.pc (encode (.call nnn)))

/-- SE_IMM (R103). -/
def execSeImm (x : Nibble) (kk : Byte) (s : State) : Host.Outcome State Fault Refusal :=
  .next (s.advancePC.skipIf (decide (s.getV x = kk)))

/-- SNE_IMM (R104). -/
def execSneImm (x : Nibble) (kk : Byte) (s : State) : Host.Outcome State Fault Refusal :=
  .next (s.advancePC.skipIf (decide (s.getV x ≠ kk)))

/-- SE_REG (R105). -/
def execSeReg (x y : Nibble) (s : State) : Host.Outcome State Fault Refusal :=
  .next (s.advancePC.skipIf (decide (s.getV x = s.getV y)))

/-- SNE_REG (R106). -/
def execSneReg (x y : Nibble) (s : State) : Host.Outcome State Fault Refusal :=
  .next (s.advancePC.skipIf (decide (s.getV x ≠ s.getV y)))

/-- JP_V0 (R107): the offset register is always `V0`. -/
def execJpV0 (nnn : Addr12) (s : State) : Host.Outcome State Fault Refusal :=
  .next (s.advancePC.setPC (addressOperand nnn + widen (s.getV 0)))

end Sys2Proof.Machine
end

