-- ==== Sys2Proof/Machine/Display.lean ====
section
/-! DEFINITION. The framebuffer instructions (spec 44_display.md): DRW is the pixel loop of R166 as it stands. -/

namespace Sys2Proof.Machine

/-- CLS (R165). -/
def execCls (s : State) : Host.Outcome State Fault Refusal :=
  .next s.advancePC.clearDisplay

/-- `V[x] mod 64`, the start column (R166). -/
def startColumn (b : Byte) : Fin 64 := ⟨b.toNat % 64, Nat.mod_lt _ (by decide)⟩

/-- `V[y] mod 32`, the start row (R166). -/
def startRow (b : Byte) : Fin 32 := ⟨b.toNat % 32, Nat.mod_lt _ (by decide)⟩

/-- `(x0 + b) mod 64`: columns wrap to the start of the same row (R166). -/
def columnAt (x0 : Fin 64) (b : Nat) : Fin 64 := ⟨(x0.val + b) % 64, Nat.mod_lt _ (by decide)⟩

/-- `(y0 + r) mod 32`: rows wrap from the bottom to the top (R166). -/
def rowAt (y0 : Fin 32) (r : Nat) : Fin 32 := ⟨(y0.val + r) % 32, Nat.mod_lt _ (by decide)⟩

/-- The inner loop's body: a lit pixel under a set sprite bit is a collision, and the pixel is toggled (R166). -/
def State.xorPixel (s : State) (px : Fin 64) (py : Fin 32) : State :=
  if s.pixel px py then (s.setV vf 1).togglePixel px py else s.togglePixel px py

/-- Bit `b` of a sprite row, counted from the left (bit 7 is the leftmost pixel, R166). -/
def State.drawBit (x0 : Fin 64) (py : Fin 32) (sprite : Byte) (s : State) (b : Nat) : State :=
  if sprite.getLsbD (7 - b) then s.xorPixel (columnAt x0 b) py else s

/-- Sprite row `r`: read at `I + r` and blitted at row `(y0 + r) mod 32` (R166). -/
def State.drawRow (x0 : Fin 64) (y0 : Fin 32) (s : State) (r : Nat) : State :=
  (List.range 8).foldl (State.drawBit x0 (rowAt y0 r) (s.memRead (s.indexed r))) s

/-- The loop over the `n` rows, after `VF` has been cleared (R166). -/
def State.drawSprite (s : State) (x0 : Fin 64) (y0 : Fin 32) (n : Nat) : State :=
  (List.range n).foldl (State.drawRow x0 y0) (s.setV vf 0)

/-- DRW (R166): the coordinates are read before `VF` is cleared. -/
def execDrw (x y n : Nibble) (s : State) : Host.Outcome State Fault Refusal :=
  .next (s.advancePC.drawSprite (startColumn (s.getV x)) (startRow (s.getV y)) n.toNat)

end Sys2Proof.Machine
end

