-- ==== Sys2Proof/Machine/Keys.lean ====
section
/-! DEFINITION. The key-input instructions (spec 45_keys.md). -/

namespace Sys2Proof.Machine

/-- SKP (R175). -/
def execSkp (x : Nibble) (s : State) : Host.Outcome State Fault Refusal :=
  .next (s.advancePC.skipIf (s.getKey (s.digitOf x)))

/-- SKNP (R176). -/
def execSknp (x : Nibble) (s : State) : Host.Outcome State Fault Refusal :=
  .next (s.advancePC.skipIf (!s.getKey (s.digitOf x)))

/-- The blocking state armed: the destination register recorded, the rest of the budget handed to the timers in one
lump sum, and the budget zeroed (R177). -/
def State.awaitKey (s : State) (x : Nibble) : State :=
  { s with
    keyDest := x
    runState := .awaitingKey
    timers := s.timers.advance s.budget
    budget := 0 }

/-- LD_VX_K (R177): no charge of its own; the write of `V[x]` is done by the KEY transaction (R178). -/
def execLdVxK (x : Nibble) (s : State) : Host.Outcome State Fault Refusal :=
  .next (s.advancePC.awaitKey x)

end Sys2Proof.Machine
end

