-- ==== Sys2Proof/Machine/MemoryIndex.lean ====
section
/-! DEFINITION. Memory and index-register instructions (spec 42_memory_index.md). -/

namespace Sys2Proof.Machine

/-- LD_I (R140). -/
def execLdI (nnn : Addr12) (s : State) : Host.Outcome State Fault Refusal :=
  .next (s.advancePC.setI (addressOperand nnn))

/-- ADD_I (R141): modulo 65536, no flag. -/
def execAddI (x : Nibble) (s : State) : Host.Outcome State Fault Refusal :=
  .next (s.advancePC.setI (s.i + widen (s.getV x)))

/-- LD_F (R142). -/
def execLdF (x : Nibble) (s : State) : Host.Outcome State Fault Refusal :=
  .next (s.advancePC.setI (glyphAddress (s.digitOf x)))

/-- The three stores of LD_B, hundreds first (R143). -/
def State.storeDigits (s : State) (b : Byte) : State :=
  ((s.memWrite (s.indexed 0) (hundreds b)).memWrite (s.indexed 1) (tens b)).memWrite (s.indexed 2) (units b)

/-- LD_B (R143): `I` is unchanged. -/
def execLdB (x : Nibble) (s : State) : Host.Outcome State Fault Refusal :=
  .next (s.advancePC.storeDigits (s.getV x))

/-- One pass of LD_MEM_VX's loop: `MemWrite(I + k, 1, V[k])` (R144). -/
def State.storeRegister (s : State) (k : Nat) : State :=
  s.memWrite (s.indexed k) (s.getV (registerNumber k))

/-- One pass of LD_VX_MEM's loop: `V[k] <- MemRead(I + k, 1)` (R145). -/
def State.loadRegister (s : State) (k : Nat) : State :=
  s.setV (registerNumber k) (s.memRead (s.indexed k))

/-- `I <- (I + x + 1) mod 65536` (R144, R145). -/
def State.advanceI (s : State) (x : Nibble) : State := s.setI (s.i + BitVec.ofNat 16 (x.toNat + 1))

/-- LD_MEM_VX (R144): registers 0 to x, ascending. -/
def execLdMemVx (x : Nibble) (s : State) : Host.Outcome State Fault Refusal :=
  .next (((List.range (x.toNat + 1)).foldl State.storeRegister s.advancePC).advanceI x)

/-- LD_VX_MEM (R145): registers 0 to x, ascending. -/
def execLdVxMem (x : Nibble) (s : State) : Host.Outcome State Fault Refusal :=
  .next (((List.range (x.toNat + 1)).foldl State.loadRegister s.advancePC).advanceI x)

end Sys2Proof.Machine
end

