-- ==== Sys2Proof/Machine/Random.lean ====
section
/-! DEFINITION. The random-number instruction (spec 43_random.md). -/

namespace Sys2Proof.Machine

/-- RND (R160): a fresh draw under the mask `kk`. -/
def execRnd (x : Nibble) (kk : Byte) (s : State) : Host.Outcome State Fault Refusal :=
  .next (s.advancePC.consumeDraw.setV x (s.drawnByte &&& kk))

end Sys2Proof.Machine
end

