-- ==== Sys2Proof/Machine/Timers.lean ====
section
/-! DEFINITION. The timer-access instructions (spec 46_timers.md). -/

namespace Sys2Proof.Machine

/-- LD_VX_DT (R185). -/
def execLdVxDt (x : Nibble) (s : State) : Host.Outcome State Fault Refusal :=
  .next (s.advancePC.setV x s.timers.dt)

/-- LD_DT_VX (R186): the accumulator is not touched. -/
def execLdDtVx (x : Nibble) (s : State) : Host.Outcome State Fault Refusal :=
  .next (s.advancePC.setDT (s.getV x))

/-- LD_ST_VX (R187). -/
def execLdStVx (x : Nibble) (s : State) : Host.Outcome State Fault Refusal :=
  .next (s.advancePC.setST (s.getV x))

end Sys2Proof.Machine
end

