-- ==== Sys2Proof/Machine/HostPort.lean ====
section
/-! DEFINITION. The host's transactions KEY, FRAME and SPEED and its read ports (spec 60_exceptions.md R219, R221,
R227; 47_sequencer_scheduler.md R193, R195, R197). LOAD is `State.load` of Machine/Ops.lean. -/

namespace Sys2Proof.Machine

/-- Completion of the key wait: `V[key_dest] <- k; state <- RUNNING` (45_keys.md R178). -/
def State.completeKeyWait (s : State) (k : Nibble) : State :=
  if s.runState = .awaitingKey then
    { s.setV s.keyDest (k.setWidth 8) with runState := .running }
  else s

/-- `KEY(k, ev)` (R221): values outside 0 to 15 are ignored; a press sets the latch; a release clears it and
completes a key wait. -/
def State.keyEvent (s : State) (k : Int) (ev : KeyEvent) : State :=
  if 0 ≤ k ∧ k ≤ 15 then
    match ev with
    | .pressed => s.setKey (BitVec.ofInt 4 k) true
    | .released => (s.setKey (BitVec.ofInt 4 k) false).completeKeyWait (BitVec.ofInt 4 k)
  else s

/-- The grant of a frame: `elapsed × (speed + 1)` (R193). -/
def State.grant (s : State) (elapsed : Nat) : Int := elapsed * (s.speed.val + 1)

/-- The opening of `FRAME(elapsed)` (R195): in RUNNING the grant is added to the budget, which the steps that follow
consume; in every other state it ages the timers. -/
def State.openFrame (s : State) (elapsed : Nat) : State :=
  if s.runState = .running then { s with budget := s.budget + s.grant elapsed }
  else s.timerAdvance (s.grant elapsed)

/-- `SPEED(up)` and `SPEED(down)`, saturating at 7 and 0 (R197). -/
def State.changeSpeed (s : State) : SpeedChange → State
  | .up => { s with speed := ⟨min (s.speed.val + 1) 7, by omega⟩ }
  | .down => { s with speed := ⟨s.speed.val - 1, by omega⟩ }

/-- One host transaction (R219). -/
def State.applyTransaction (s : State) : Transaction → State
  | .load prog => s.load prog
  | .key k ev => s.keyEvent k ev
  | .frame elapsed => s.openFrame elapsed
  | .speed change => s.changeSpeed change

/-- The output `sound_active = (ST ≠ 0)` (R227). -/
def State.soundActive (s : State) : Bool := s.timers.st ≠ 0

/-- The output `halted = (state = STOPPED)` (R227). -/
def State.halted (s : State) : Bool := s.runState = .stopped

end Sys2Proof.Machine
end

