-- ==== Sys2Proof/Machine/Sequencer.lean ====
section
/-! DEFINITION. The sequencer (spec 47_sequencer_scheduler.md): `Step` of R190 with the charge of R191, the loop test
of R195, the host's turn between frames, and the placing of an instruction where the next step fetches it. -/

namespace Sys2Proof.Machine

/-- A FRAME is being consumed: the loop test of R195, `state = RUNNING and budget > 0` (log entry 6). -/
def State.inFrame (s : State) : Bool := decide (s.runState = .running) && decide (0 < s.budget)

/-- The charge after a body, on the outcome of `exec` (R191). -/
def chargeOutcome (i : Instr) : Host.Outcome State Fault Refusal → Host.Outcome State Fault Refusal
  | .next t => .next (t.chargeFor i)
  | .fault r => .fault r
  | .refused r => .refused r

/-- `Step` (R190): fetch, advance `PC`, decode, execute, charge. An illegal word is BAD_OPCODE, with `PC` advanced. -/
def instructionStep (s : State) : Host.Outcome State Fault Refusal :=
  match decodeWord s.fetchWord with
  | .ok i => chargeOutcome i (exec i s)
  | .error _ => .next (s.advancePC.fatal .badOpcode s.pc s.fetchWord)

/-- The host's turn: the oldest waiting transaction is applied; with none waiting nothing changes
(10_state.md R41). -/
def hostStep (s : State) : Host.Outcome State Fault Refusal :=
  match s.inbox with
  | [] => .next s
  | t :: rest => .next (State.applyTransaction { s with inbox := rest } t)

/-- One step of the machine: an instruction while a FRAME is being consumed, a host transaction otherwise. -/
def machineStep (s : State) : Host.Outcome State Fault Refusal :=
  if s.inFrame then instructionStep s else hostStep s

/-- The word `w` stored at `PC`, first byte at the lower address, and a FRAME open, so that the next step is the
`Step` that runs it (log entry 7). -/
def State.placeInstruction (s : State) (w : Word) : State :=
  { (s.memWrite s.pc (Word.firstByte w)).memWrite (s.pc + 1) (Word.secondByte w) with
    runState := .running
    budget := if 0 < s.budget then s.budget else 1 }

end Sys2Proof.Machine
end

