-- ==== Sys2Proof/Machine/Step.lean ====
section
/-! DEFINITION. The step of the machine and the placing of a table word where the next step fetches it. -/

namespace Sys2Proof.Machine

/-- One step: Machine/Sequencer.lean. -/
def step (s : State) : Host.Outcome State Fault Refusal := machineStep s

/-- The table word `w` of `nbits` bits placed where the next step fetches its instruction. -/
def State.withFetchWord (s : State) (nbits w : Nat) : State := s.placeInstruction (tableWord nbits w)

end Sys2Proof.Machine
end

