-- ==== Sys2Proof/Safety.lean ====
section
/-! DEFINITION. The terms claims use: the invariant of spec 10_state.md R35, the parts of the state a frame leaves
alone, which instructions may write what, and the two readings of DRW (pixel by pixel and byte by byte) that the
spec gives beside its loop (44_display.md R166, R168). -/

namespace Sys2Proof.Machine

/-! ### The invariant (10_state.md R35) -/

/-- Memory is in its canonical form (items 2 and 3 of R35 for the model's cells). -/
abbrev State.memCanonical (s : State) : Prop := Memory.wf s.mem

/-- Item 8 of R35: the accumulator is in 0..16666. -/
abbrev State.accInRange (s : State) : Prop := 0 ≤ s.timers.acc ∧ s.timers.acc ≤ 16666

/-- Item 6 of R35: a machine that awaits a key has no budget. -/
abbrev State.waitHasNoBudget (s : State) : Prop := s.runState = .awaitingKey → s.budget = 0

/-- Item 7 of R35: a recorded diagnostic has a cause and belongs to a stopped machine; one not recorded is clear. -/
abbrev State.diagConsistent (s : State) : Prop :=
  (s.diag.valid = true → s.runState = .stopped ∧ s.diag.cause ≠ 0) ∧ (s.diag.valid = false → s.diag = Diag.none)

/-- The invariant. Items 1 and 5 of R35 (`SP` in 0..16, `speed` in 0..7), the byte and word ranges of items 2 and 3
and the four run states of item 4 hold by the types of the fields. -/
abbrev State.Inv (s : State) : Prop :=
  s.memCanonical ∧ s.accInRange ∧ s.waitHasNoBudget ∧ s.diagConsistent

/-- A safe state: the machine has not been stopped by a fatal condition (60_exceptions.md R210). -/
def State.notFatal (s : State) : Prop := s.diag.valid = false

/-- Every element that 10_state.md R37 gives 0 in both of its columns is 0: all but `PC`, memory and the run
state. -/
def State.zeroed (s : State) : Prop :=
  (∀ r, s.getV r = 0) ∧ s.i = 0 ∧ (∀ k : Fin 16, s.stack[k.val] = 0) ∧ s.sp = 0
    ∧ (∀ k : Fin 256, s.display[k.val] = 0) ∧ s.timers.dt = 0 ∧ s.timers.st = 0 ∧ (∀ k, s.getKey k = false)
    ∧ s.keyDest = 0 ∧ s.budget = 0 ∧ s.timers.acc = 0 ∧ s.speed = 0
    ∧ s.diag = { valid := false, cause := 0, addr := 0, word := 0 }

/-! ### What a frame leaves alone: `s` before, `t` after -/

/-- Every general register outside `W` is unchanged. -/
def sameRegsExcept (W : Nibble → Prop) (s t : State) : Prop := ∀ r, ¬ W r → t.getV r = s.getV r

/-- Every general register is unchanged. -/
def sameRegs (s t : State) : Prop := ∀ r, t.getV r = s.getV r

/-- `I` is unchanged. -/
def sameIndex (s t : State) : Prop := t.i = s.i

/-- The call stack, stale entries included, and `SP` are unchanged. -/
def sameStack (s t : State) : Prop := t.stack = s.stack ∧ t.sp = s.sp

/-- Every byte of memory reads as before. -/
def sameMemory (s t : State) : Prop := ∀ a, Memory.read t.mem a = Memory.read s.mem a

/-- The framebuffer is unchanged. -/
def sameDisplay (s t : State) : Prop := t.display = s.display

/-- `DT`, `ST` and the accumulator are unchanged. -/
def sameTimers (s t : State) : Prop := t.timers = s.timers

/-- The run state, `key_dest` and the budget are unchanged. -/
def sameRun (s t : State) : Prop :=
  t.runState = s.runState ∧ t.keyDest = s.keyDest ∧ t.budget = s.budget

/-- The diagnostic is unchanged. -/
def sameDiag (s t : State) : Prop := t.diag = s.diag

/-- What the host writes, the key latches, the speed and its waiting transactions, and the parameter FONT are
unchanged. -/
def sameHostSide (s t : State) : Prop :=
  t.keys = s.keys ∧ t.speed = s.speed ∧ t.inbox = s.inbox ∧ t.font = s.font

/-- No draw has been consumed. -/
def sameDraws (s t : State) : Prop := t.draws = s.draws

/-- Everything but the registers, `PC`, `I`, memory, stack, display and timers is unchanged. -/
def sameControl (s t : State) : Prop := sameRun s t ∧ sameDiag s t ∧ sameHostSide s t ∧ sameDraws s t

/-- Only `PC` and the registers in `W` may change. -/
def onlyRegs (W : Nibble → Prop) (s t : State) : Prop :=
  sameRegsExcept W s t ∧ sameIndex s t ∧ sameStack s t ∧ sameMemory s t ∧ sameDisplay s t ∧ sameTimers s t
    ∧ sameControl s t

/-- Only `PC` may change. -/
def onlyPC (s t : State) : Prop := onlyRegs (fun _ => False) s t

end Sys2Proof.Machine

namespace Sys2Proof

/-! ### Which instructions may write what (10_state.md R22, R23, R25, R27; 20_memory.md R55) -/

/-- The instructions that write `VF` as a side effect, and those whose named destination it is (R22). -/
def Instr.mayWriteVF : Instr → Prop
  | .or _ _ | .and _ _ | .xor _ _ | .addReg _ _ | .sub _ _ | .subn _ _ | .shr _ _ | .shl _ _ | .drw _ _ _ => True
  | .ldImm x _ | .addImm x _ | .ldReg x _ | .rnd x _ | .ldVxDt x | .ldVxMem x => x = Machine.vf
  | _ => False

/-- JP, CALL, JP_V0 and RET replace `PC` (R23). -/
def Instr.replacesPC : Instr → Prop
  | .jp _ | .call _ | .jpV0 _ | .ret => True
  | _ => False

/-- The conditional skips (40_control_flow.md R103 to R106, 45_keys.md R175, R176). -/
def Instr.isSkip : Instr → Prop
  | .seImm _ _ | .sneImm _ _ | .seReg _ _ | .sneReg _ _ | .skp _ | .sknp _ => True
  | _ => False

/-- Only CALL pushes and only RET pops (R25). -/
def Instr.usesStack : Instr → Prop
  | .call _ | .ret => True
  | _ => False

/-- Only CLS and DRW write the framebuffer (R27). -/
def Instr.drawsDisplay : Instr → Prop
  | .cls | .drw _ _ _ => True
  | _ => False

/-- The memory offsets from `I` that an instruction stores to (R55). -/
def Instr.storesAt : Instr → Nat → Prop
  | .ldB _, k => k ≤ 2
  | .ldMemVx x, k => k ≤ x.toNat
  | _, _ => False

end Sys2Proof

namespace Sys2Proof.Machine

/-! ### DRW seen from the framebuffer (44_display.md R166, R168) -/

/-- Column distance of a pixel from the start column, going right with wrap. -/
def columnOffset (x0 px : Fin 64) : Nat := (px.val + 64 - x0.val) % 64

/-- Row distance of a pixel from the start row, going down with wrap. -/
def rowOffset (y0 py : Fin 32) : Nat := (py.val + 32 - y0.val) % 32

/-- Does a sprite of `n` rows at (`x0`, `y0`) have a set bit over pixel (px, py)? -/
def State.spriteOver (s : State) (x0 : Fin 64) (y0 : Fin 32) (n : Nat) (px : Fin 64) (py : Fin 32) : Bool :=
  decide (columnOffset x0 px < 8) && decide (rowOffset y0 py < n)
    && (s.memRead (s.indexed (rowOffset y0 py))).getLsbD (7 - columnOffset x0 px)

/-- `L = s >> o` of R168. -/
def leftPart (x0 : Fin 64) (sprite : Byte) : Byte := sprite >>> (x0.val % 8)

/-- `Rt = (s << (8 − o)) mod 256` of R168, 0 when `o = 0`. -/
def rightPart (x0 : Fin 64) (sprite : Byte) : Byte := sprite <<< (8 - x0.val % 8)

/-- `iL = py × 8 + c` of R168. -/
def leftIndex (x0 : Fin 64) (py : Fin 32) : Fin 256 := ⟨py.val * 8 + x0.val / 8, by omega⟩

/-- `iR = py × 8 + (c + 1) mod 8` of R168. -/
def rightIndex (x0 : Fin 64) (py : Fin 32) : Fin 256 := ⟨py.val * 8 + (x0.val / 8 + 1) % 8, by omega⟩

/-- `display[k] <- display[k] ^ b`. -/
def State.xorDisplay (s : State) (k : Fin 256) (b : Byte) : State :=
  { s with display := s.display.set k.val (s.display[k.val] ^^^ b) }

/-- One sprite row by the byte-level form of R168. -/
def State.blitRow (x0 : Fin 64) (y0 : Fin 32) (s : State) (r : Nat) : State :=
  let sprite := s.memRead (s.indexed r)
  let py := rowAt y0 r
  let hit := s.display[(leftIndex x0 py).val] &&& leftPart x0 sprite ≠ 0
    ∨ s.display[(rightIndex x0 py).val] &&& rightPart x0 sprite ≠ 0
  ((if hit then s.setV vf 1 else s).xorDisplay (leftIndex x0 py) (leftPart x0 sprite)).xorDisplay
    (rightIndex x0 py) (rightPart x0 sprite)

end Sys2Proof.Machine
end

