-- ==== Sys2Proof/WellFormed.lean ====
section
/-! DEFINITION. Which words are instructions: the opcode map of spec 30_encoding.md R75 as the spec prints it, one
(mask, match) row per instruction, and the test that a word is selected by one. The operands of `Instr` have the
widths of their fields, so a term of `Instr` needs no check of its own; what can be ill-formed is a word (R77). -/

namespace Sys2Proof

/-- A row of R75: "a word W selects the row when `W & mask = match`". -/
structure OpcodeRow where
  mnemonic : String
  mask : Word
  pattern : Word
  deriving DecidableEq, Repr

/-- Rows 1 to 9 of R75 (families 0 to 7). -/
def opcodeRowsLow : List OpcodeRow := [
   ⟨"CLS", 0xFFFF#16, 0x00E0#16⟩,
   ⟨"RET", 0xFFFF#16, 0x00EE#16⟩,
   ⟨"JP", 0xF000#16, 0x1000#16⟩,
   ⟨"CALL", 0xF000#16, 0x2000#16⟩,
   ⟨"SE_IMM", 0xF000#16, 0x3000#16⟩,
   ⟨"SNE_IMM", 0xF000#16, 0x4000#16⟩,
   ⟨"SE_REG", 0xF00F#16, 0x5000#16⟩,
   ⟨"LD_IMM", 0xF000#16, 0x6000#16⟩,
   ⟨"ADD_IMM", 0xF000#16, 0x7000#16⟩ ]

/-- Rows 10 to 19 of R75 (families 8 and 9). -/
def opcodeRowsMiddle : List OpcodeRow := [
   ⟨"LD_REG", 0xF00F#16, 0x8000#16⟩,
   ⟨"OR", 0xF00F#16, 0x8001#16⟩,
   ⟨"AND", 0xF00F#16, 0x8002#16⟩,
   ⟨"XOR", 0xF00F#16, 0x8003#16⟩,
   ⟨"ADD_REG", 0xF00F#16, 0x8004#16⟩,
   ⟨"SUB", 0xF00F#16, 0x8005#16⟩,
   ⟨"SHR", 0xF00F#16, 0x8006#16⟩,
   ⟨"SUBN", 0xF00F#16, 0x8007#16⟩,
   ⟨"SHL", 0xF00F#16, 0x800E#16⟩,
   ⟨"SNE_REG", 0xF00F#16, 0x9000#16⟩ ]

/-- Rows 20 to 34 of R75 (families A to F). -/
def opcodeRowsHigh : List OpcodeRow := [
   ⟨"LD_I", 0xF000#16, 0xA000#16⟩,
   ⟨"JP_V0", 0xF000#16, 0xB000#16⟩,
   ⟨"RND", 0xF000#16, 0xC000#16⟩,
   ⟨"DRW", 0xF000#16, 0xD000#16⟩,
   ⟨"SKP", 0xF0FF#16, 0xE09E#16⟩,
   ⟨"SKNP", 0xF0FF#16, 0xE0A1#16⟩,
   ⟨"LD_VX_DT", 0xF0FF#16, 0xF007#16⟩,
   ⟨"LD_VX_K", 0xF0FF#16, 0xF00A#16⟩,
   ⟨"LD_DT_VX", 0xF0FF#16, 0xF015#16⟩,
   ⟨"LD_ST_VX", 0xF0FF#16, 0xF018#16⟩,
   ⟨"ADD_I", 0xF0FF#16, 0xF01E#16⟩,
   ⟨"LD_F", 0xF0FF#16, 0xF029#16⟩,
   ⟨"LD_B", 0xF0FF#16, 0xF033#16⟩,
   ⟨"LD_MEM_VX", 0xF0FF#16, 0xF055#16⟩,
   ⟨"LD_VX_MEM", 0xF0FF#16, 0xF065#16⟩ ]

/-- The complete opcode map of R75. -/
def opcodeMap : List OpcodeRow := opcodeRowsLow ++ opcodeRowsMiddle ++ opcodeRowsHigh

/-- The row selects the word (R75). -/
def OpcodeRow.selects (r : OpcodeRow) (w : Word) : Bool := w &&& r.mask == r.pattern

/-- The word is legal: some row of R75 selects it. Every other word is illegal (R77). -/
def wordWellFormed (w : Word) : Bool := opcodeMap.any fun r => r.selects w

end Sys2Proof
end

