-- ==== Sys2Proof/Certificates/Slice0/Obligations.lean ====
section
/-! DEFINITION. The statements about the model, for the provers: encoding, each instruction's result and frame, the
fatal conditions, the Timer Unit, the host's transactions, and the whole-machine rules. Where a statement rests on a
choice the spec marks as its own, its docstring names the decision of spec/92_eei_decisions.md and the log entry. -/

open Sys2Proof Sys2Proof.Machine

/-! ### Encoding and decoding (30_encoding.md) -/

/-- R71 to R75, R51: decoding the word, or the two bytes, that the encoder gives an instruction gives the instruction
back, with every operand at every value, and leaves the bytes that follow. The patterns are the spec's (D5, log
entry 8). -/
def Obligations.DecodeInvertsEncode : Prop :=
  ∀ (i : Instr) (rest : List Byte),
    decodeWord (encode i) = .ok i ∧ decode (encodeBytes i ++ rest) = .ok (i, rest)

/-- R74, "every one of the 65536 words is either exactly one instruction of rule R75 or illegal": a word that decodes
is the encoding of what it decodes to, so no bit of it is dropped. -/
def Obligations.EncodeInvertsDecode : Prop :=
  ∀ (w : Word) (i : Instr), decodeWord w = .ok i → encode i = w

/-- R77: the illegal words are exactly the listed ones, told by arithmetic on the word's value. Families 5 and 9 with
`n ≠ 0` are the spec's choice (D6, log entry 9). -/
def Obligations.IllegalWordsAreExactlyTheListed : Prop :=
  ∀ w : Word,
    (∃ e, decodeWord w = .error e) ↔
      (w.toNat / 4096 = 0x0 ∧ w.toNat % 4096 ≠ 0x0E0 ∧ w.toNat % 4096 ≠ 0x0EE)
      ∨ ((w.toNat / 4096 = 0x5 ∨ w.toNat / 4096 = 0x9) ∧ w.toNat % 16 ≠ 0)
      ∨ (w.toNat / 4096 = 0x8 ∧ w.toNat % 16 ∈ [0x8, 0x9, 0xA, 0xB, 0xC, 0xD, 0xF])
      ∨ (w.toNat / 4096 = 0xE ∧ w.toNat % 256 ∉ [0x9E, 0xA1])
      ∨ (w.toNat / 4096 = 0xF
          ∧ w.toNat % 256 ∉ [0x07, 0x0A, 0x15, 0x18, 0x1E, 0x29, 0x33, 0x55, 0x65])

/-- R74, R75: the decoder and the printed opcode map agree on every word: a word that decodes is selected by exactly
one row, the one that bears the instruction's mnemonic; a word that does not is selected by none. -/
def Obligations.OpcodeMapSelectsExactlyOneRow : Prop :=
  ∀ w : Word,
    (opcodeMap.filter fun r => r.selects w).map (fun r => r.mnemonic) =
      match decodeWord w with
      | .ok i => [i.mnemonic]
      | .error _ => []

/-- R75: words written out from the spec's encodings, one or more of each of the sixteen families and of each of files
40 to 46, decode to the instructions they stand for. The patterns the source does not print are the spec's (D5, log
entry 8). -/
def Obligations.SpecWordsDecode : Prop :=
  decodeWord 0x00E0 = .ok .cls ∧ decodeWord 0x00EE = .ok .ret ∧ decodeWord 0x1234 = .ok (.jp 0x234)
  ∧ decodeWord 0x2300 = .ok (.call 0x300) ∧ decodeWord 0x332A = .ok (.seImm 3 0x2A)
  ∧ decodeWord 0x432A = .ok (.sneImm 3 0x2A) ∧ decodeWord 0x5120 = .ok (.seReg 1 2)
  ∧ decodeWord 0x6A3C = .ok (.ldImm 0xA 0x3C) ∧ decodeWord 0x7105 = .ok (.addImm 1 0x05)
  ∧ decodeWord 0x812E = .ok (.shl 1 2) ∧ decodeWord 0x9120 = .ok (.sneReg 1 2)
  ∧ decodeWord 0xA2F0 = .ok (.ldI 0x2F0) ∧ decodeWord 0xB300 = .ok (.jpV0 0x300)
  ∧ decodeWord 0xC10F = .ok (.rnd 1 0x0F) ∧ decodeWord 0xD125 = .ok (.drw 1 2 5)
  ∧ decodeWord 0xE49E = .ok (.skp 4) ∧ decodeWord 0xF207 = .ok (.ldVxDt 2)
  ∧ decodeWord 0xF30A = .ok (.ldVxK 3) ∧ decodeWord 0xF215 = .ok (.ldDtVx 2)
  ∧ decodeWord 0xF218 = .ok (.ldStVx 2) ∧ decodeWord 0xF265 = .ok (.ldVxMem 2)

/-! ### The sequencer (47_sequencer_scheduler.md) -/

/-- R190, R52, R191: while a frame is being consumed, the two bytes at `PC` and `PC + 1`, first byte high, decode to
`i`, and the step is `exec i` followed by the charge of `COST(i)` where the machine is still RUNNING. What the model
adds around `exec` is that charge alone; `exec` itself advances `PC`. The masked fetch (D2, log entry 11), the charge
after the body and none for LD_VX_K (D15, D24, log entry 3) and none for a fatal step (D14, log entry 16) are the
spec's choices; that a frame is open is told by R195's loop test (log entry 6). -/
def Obligations.StepRunsDecodedInstruction : Prop :=
  ∀ (s : State) (i : Instr), s.runState = .running → 0 < s.budget →
    decodeWord (wordOfBytes (Memory.read s.mem (s.pc.toNat % 4096))
      (Memory.read s.mem ((s.pc.toNat + 1) % 4096))) = .ok i →
    step s = match exec i s with
      | .next t => .next (if t.runState = .running then t.charge (costOf i) else t)
      | .fault r => .fault r
      | .refused r => .refused r

/-- R77, R211, R213: an illegal word stops the machine with BAD_OPCODE: `PC` has advanced, the diagnostic holds the
cause code 1, the address and the word, and nothing else changes, nothing being charged. The codes and the layout of
the diagnostic are the spec's choice (D14, log entry 16). -/
def Obligations.IllegalWordStopsMachine : Prop :=
  ∀ (s : State) (e : DecodeError), s.runState = .running → 0 < s.budget →
    decodeWord s.fetchWord = .error e →
    step s = .next { s with
      pc := s.pc + 2
      runState := .stopped
      diag := { valid := true, cause := 1, addr := s.pc, word := s.fetchWord } }

/-- R41, R192, R219: outside a frame a step takes the oldest host transaction and no instruction: LOAD, KEY, FRAME and
SPEED are each the operation named here, applied to the state without that transaction; with none waiting nothing
changes. The list of waiting transactions is the model's own field (log entry 5). -/
def Obligations.HostActsBetweenFrames : Prop :=
  ∀ s : State, ¬(s.runState = .running ∧ 0 < s.budget) →
    (s.inbox = [] → step s = .next s)
    ∧ ∀ rest,
        (∀ prog, s.inbox = .load prog :: rest → step s = .next (State.load { s with inbox := rest } prog))
        ∧ (∀ k ev, s.inbox = .key k ev :: rest → step s = .next (State.keyEvent { s with inbox := rest } k ev))
        ∧ (∀ elapsed, s.inbox = .frame elapsed :: rest →
            step s = .next (State.openFrame { s with inbox := rest } elapsed))
        ∧ (∀ c, s.inbox = .speed c :: rest → step s = .next (State.changeSpeed { s with inbox := rest } c))

/-- R191: an instruction whose body leaves the machine RUNNING lowers the budget by its cost, at least 1 and the same
for every instruction of its mnemonic, hands that cost to the Timer Unit, and changes nothing else beyond its body.
The bound and the charge after the body are the spec's choices (D15, log entry 3). -/
def Obligations.StepChargesCost : Prop :=
  ∀ (s t : State) (i : Instr), s.runState = .running → 0 < s.budget → decodeWord s.fetchWord = .ok i →
    exec i s = .next t → t.runState = .running →
    ∃ u, step s = .next u ∧ 1 ≤ costOf i ∧ (∀ j : Instr, j.mnemonic = i.mnemonic → costOf j = costOf i)
      ∧ u.budget = t.budget - costOf i ∧ u.timers = t.timers.advance (costOf i)
      ∧ sameRegs t u ∧ u.pc = t.pc ∧ sameIndex t u ∧ sameStack t u ∧ sameMemory t u ∧ sameDisplay t u
      ∧ u.runState = .running ∧ u.keyDest = t.keyDest ∧ sameDiag t u ∧ sameHostSide t u ∧ sameDraws t u

/-! ### Control flow (40_control_flow.md) -/

/-- R101, R107: JP puts `nnn` into `PC`; JP_V0 puts the exact sum of `nnn` and `V0`, which can exceed 0x0FFF; nothing
else changes. -/
def Obligations.JumpsReplacePC : Prop :=
  ∀ (s : State) (nnn : Addr12),
    (∃ t, exec (.jp nnn) s = .next t ∧ t.pc.toNat = nnn.toNat ∧ onlyPC s t)
    ∧ ∃ t, exec (.jpV0 nnn) s = .next t ∧ t.pc.toNat = nnn.toNat + (s.getV 0).toNat ∧ onlyPC s t

/-- R103, R104: SE_IMM and SNE_IMM leave `PC = a + 4` when the comparison with `kk` holds or fails, else `a + 2`,
modulo 65536 (D3, log entry 12); nothing else changes. -/
def Obligations.ImmediateSkips : Prop :=
  ∀ (s : State) (x : Nibble) (kk : Byte),
    (∃ t, exec (.seImm x kk) s = .next t ∧ t.pc = (if s.getV x = kk then s.pc + 4 else s.pc + 2) ∧ onlyPC s t)
    ∧ ∃ t, exec (.sneImm x kk) s = .next t ∧ t.pc = (if s.getV x = kk then s.pc + 2 else s.pc + 4)
        ∧ onlyPC s t

/-- R105, R106: SE_REG and SNE_REG, the same for two registers; with `x = y` SE_REG always skips and SNE_REG never. -/
def Obligations.RegisterSkips : Prop :=
  ∀ (s : State) (x y : Nibble),
    (∃ t, exec (.seReg x y) s = .next t ∧ t.pc = (if s.getV x = s.getV y then s.pc + 4 else s.pc + 2)
      ∧ onlyPC s t)
    ∧ ∃ t, exec (.sneReg x y) s = .next t ∧ t.pc = (if s.getV x = s.getV y then s.pc + 2 else s.pc + 4)
        ∧ onlyPC s t

/-- R102, R25: below depth 16, CALL writes the address of the next instruction into the first free entry, leaves every
other entry, raises `SP` by 1 and jumps to `nnn`; nothing else changes. Entries are 16 bits wide by the spec's choice
(D30, log entry 19). -/
def Obligations.CallPushesReturnAddress : Prop :=
  ∀ (s : State) (nnn : Addr12), s.sp.val < 16 →
    ∃ t, exec (.call nnn) s = .next t ∧ t.pc.toNat = nnn.toNat ∧ t.sp.val = s.sp.val + 1
      ∧ (∀ k : Fin 16, t.stack[k.val] = if k.val = s.sp.val then s.pc + 2 else s.stack[k.val])
      ∧ sameRegs s t ∧ sameIndex s t ∧ sameMemory s t ∧ sameDisplay s t ∧ sameTimers s t ∧ sameControl s t

/-- R100, R25: with a valid entry, RET lowers `SP` by 1 and jumps to the whole 16-bit entry that was on top; the entry
keeps its contents and nothing else changes. -/
def Obligations.ReturnPopsReturnAddress : Prop :=
  ∀ (s : State) (k : Fin 16), s.sp.val = k.val + 1 →
    ∃ t, exec .ret s = .next t ∧ t.pc = s.stack[k.val] ∧ t.sp.val = k.val ∧ t.stack = s.stack
      ∧ sameRegs s t ∧ sameIndex s t ∧ sameMemory s t ∧ sameDisplay s t ∧ sameTimers s t ∧ sameControl s t

/-- R102, R100, R210, R213: the 17th nested CALL and a RET on an empty stack stop the machine: `PC = a + 2`, the
diagnostic holds cause code 2 or 3, the address and the instruction's word, and nothing else changes (D14, log
entry 16). -/
def Obligations.StackFatalConditions : Prop :=
  ∀ (s : State) (nnn : Addr12),
    (s.sp.val = 16 → exec (.call nnn) s = .next { s with
      pc := s.pc + 2
      runState := .stopped
      diag := { valid := true, cause := 2, addr := s.pc, word := encode (.call nnn) } })
    ∧ (s.sp.val = 0 → exec .ret s = .next { s with
      pc := s.pc + 2
      runState := .stopped
      diag := { valid := true, cause := 3, addr := s.pc, word := 0x00EE } })

/-- R212: "push when at 16 is a fatal error; pop when at 0 is a fatal error", checked before the stack, `SP` or `PC`
(beyond the advance) is written, and at no other depth; calling to depth 16 succeeds. -/
def Obligations.StackDepthDecidesFatal : Prop :=
  ∀ (s : State) (nnn : Addr12), s.runState = .running →
    (∃ t, exec (.call nnn) s = .next t ∧ (t.runState = .stopped ↔ s.sp.val = 16)
      ∧ (s.sp.val = 16 → t.sp = s.sp ∧ t.stack = s.stack ∧ t.pc = s.pc + 2)
      ∧ (s.sp.val < 16 → t.runState = .running ∧ t.sp.val = s.sp.val + 1))
    ∧ ∃ t, exec .ret s = .next t ∧ (t.runState = .stopped ↔ s.sp.val = 0)
      ∧ (s.sp.val = 0 → t.sp = s.sp ∧ t.stack = s.stack ∧ t.pc = s.pc + 2)
      ∧ (0 < s.sp.val → t.runState = .running ∧ t.sp.val + 1 = s.sp.val)

/-! ### Arithmetic (41_arithmetic.md) -/

/-- R120: `6xkk`, the pattern the source prints, decodes to LD_IMM, which sets register `x` to `kk` and advances `PC`
by 2, for all `x` and `kk`; `VF` changes only when it is the destination and nothing else changes. -/
def Obligations.LoadImmediateSetsRegister : Prop :=
  ∀ (s : State) (x : Nibble) (kk : Byte),
    decodeWord (BitVec.ofNat 16 (0x6000 + 256 * x.toNat + kk.toNat)) = .ok (.ldImm x kk)
    ∧ ∃ t, exec (.ldImm x kk) s = .next t ∧ t.getV x = kk ∧ t.pc = s.pc + 2 ∧ onlyRegs (fun r => r = x) s t

/-- R121, R122: ADD_IMM leaves `(V[x] + kk) mod 256` in `V[x]` and writes no flag; LD_REG copies `V[y]` to `V[x]`;
nothing else changes but `PC`. -/
def Obligations.AddImmediateAndCopy : Prop :=
  ∀ (s : State) (x y : Nibble) (kk : Byte),
    (∃ t, exec (.addImm x kk) s = .next t ∧ (t.getV x).toNat = ((s.getV x).toNat + kk.toNat) % 256
      ∧ t.pc = s.pc + 2 ∧ onlyRegs (fun r => r = x) s t)
    ∧ ∃ t, exec (.ldReg x y) s = .next t ∧ t.getV x = s.getV y ∧ t.pc = s.pc + 2
      ∧ onlyRegs (fun r => r = x) s t

/-- R123, R124, R125: OR, AND and XOR combine `V[x]` and `V[y]` bit by bit into `V[x]` and always leave `VF = 0`, also
when `x = 15`; nothing else changes but `PC`. -/
def Obligations.BitwiseOpsClearVF : Prop :=
  ∀ (s : State) (x y : Nibble),
    (∃ t, exec (.or x y) s = .next t ∧ t.getV vf = 0 ∧ t.pc = s.pc + 2
      ∧ (x ≠ vf → ∀ k, (t.getV x).getLsbD k = ((s.getV x).getLsbD k || (s.getV y).getLsbD k))
      ∧ onlyRegs (fun r => r = x ∨ r = vf) s t)
    ∧ (∃ t, exec (.and x y) s = .next t ∧ t.getV vf = 0 ∧ t.pc = s.pc + 2
      ∧ (x ≠ vf → ∀ k, (t.getV x).getLsbD k = ((s.getV x).getLsbD k && (s.getV y).getLsbD k))
      ∧ onlyRegs (fun r => r = x ∨ r = vf) s t)
    ∧ ∃ t, exec (.xor x y) s = .next t ∧ t.getV vf = 0 ∧ t.pc = s.pc + 2
      ∧ (x ≠ vf → ∀ k, (t.getV x).getLsbD k = ((s.getV x).getLsbD k ^^ (s.getV y).getLsbD k))
      ∧ onlyRegs (fun r => r = x ∨ r = vf) s t

/-- R126: ADD_REG keeps the low 8 bits of the exact sum and reports the ninth in `VF`. That `VF` holds the carry also
when `x = 15` is the spec's choice (D7, log entry 13). -/
def Obligations.AddRegisterCarry : Prop :=
  ∀ (s : State) (x y : Nibble),
    ∃ t, exec (.addReg x y) s = .next t
      ∧ (t.getV vf).toNat = ((s.getV x).toNat + (s.getV y).toNat) / 256
      ∧ (x ≠ vf → (t.getV x).toNat = ((s.getV x).toNat + (s.getV y).toNat) % 256)
      ∧ t.pc = s.pc + 2 ∧ onlyRegs (fun r => r = x ∨ r = vf) s t

/-- R127, R129, R131: SUB leaves `V[x] − V[y]` and SUBN `V[y] − V[x]` modulo 256 in `V[x]`, and `VF` is 1 exactly when
the minuend is at least the subtrahend. The flag with `x = 15` is the spec's choice (D7, log entry 13). -/
def Obligations.SubtractionsNoBorrow : Prop :=
  ∀ (s : State) (x y : Nibble),
    (∃ t, exec (.sub x y) s = .next t
      ∧ (t.getV vf).toNat = (if (s.getV y).toNat ≤ (s.getV x).toNat then 1 else 0)
      ∧ (x ≠ vf → ((t.getV x).toNat : Int) = ((s.getV x).toNat - (s.getV y).toNat : Int) % 256)
      ∧ t.pc = s.pc + 2 ∧ onlyRegs (fun r => r = x ∨ r = vf) s t)
    ∧ ∃ t, exec (.subn x y) s = .next t
      ∧ (t.getV vf).toNat = (if (s.getV x).toNat ≤ (s.getV y).toNat then 1 else 0)
      ∧ (x ≠ vf → ((t.getV x).toNat : Int) = ((s.getV y).toNat - (s.getV x).toNat : Int) % 256)
      ∧ t.pc = s.pc + 2 ∧ onlyRegs (fun r => r = x ∨ r = vf) s t

/-- R128, R130: SHR and SHL halve and double `V[y]`, not `V[x]`, into `V[x]`, and `VF` receives the bit shifted out.
The flag with `x = 15` is the spec's choice (D7, log entry 13). -/
def Obligations.ShiftsReadSecondOperand : Prop :=
  ∀ (s : State) (x y : Nibble),
    (∃ t, exec (.shr x y) s = .next t ∧ (t.getV vf).toNat = (s.getV y).toNat % 2
      ∧ (x ≠ vf → (t.getV x).toNat = (s.getV y).toNat / 2)
      ∧ t.pc = s.pc + 2 ∧ onlyRegs (fun r => r = x ∨ r = vf) s t)
    ∧ ∃ t, exec (.shl x y) s = .next t ∧ (t.getV vf).toNat = (s.getV y).toNat / 128
      ∧ (x ≠ vf → (t.getV x).toNat = 2 * (s.getV y).toNat % 256)
      ∧ t.pc = s.pc + 2 ∧ onlyRegs (fun r => r = x ∨ r = vf) s t

/-! ### Memory and index register (42_memory_index.md) -/

/-- R140, R141: LD_I puts `nnn` into `I`; ADD_I adds `V[x]` to `I` modulo 65536 (D3, log entry 12) and writes no flag
(D12, log entry 21); nothing else changes but `PC`. -/
def Obligations.IndexLoadAndAdd : Prop :=
  ∀ (s : State) (x : Nibble) (nnn : Addr12),
    (∃ t, exec (.ldI nnn) s = .next t ∧ t.i.toNat = nnn.toNat ∧ t.pc = s.pc + 2
      ∧ sameRegs s t ∧ sameStack s t ∧ sameMemory s t ∧ sameDisplay s t ∧ sameTimers s t ∧ sameControl s t)
    ∧ ∃ t, exec (.addI x) s = .next t ∧ t.i.toNat = (s.i.toNat + (s.getV x).toNat) % 65536 ∧ t.pc = s.pc + 2
      ∧ sameRegs s t ∧ sameStack s t ∧ sameMemory s t ∧ sameDisplay s t ∧ sameTimers s t ∧ sameControl s t

/-- R142: LD_F points `I` at the glyph of the digit in `V[x]`, 0x050 + 5 × digit; that the digit is the low four bits
of a larger `V[x]` is the spec's choice (D10, log entry 14). -/
def Obligations.FontAddress : Prop :=
  ∀ (s : State) (x : Nibble),
    ∃ t, exec (.ldF x) s = .next t ∧ t.i.toNat = 0x050 + 5 * ((s.getV x).toNat % 16) ∧ t.pc = s.pc + 2
      ∧ sameRegs s t ∧ sameStack s t ∧ sameMemory s t ∧ sameDisplay s t ∧ sameTimers s t ∧ sameControl s t

/-- R143: LD_B stores the hundreds, tens and units of `V[x]` at `I`, `I + 1`, `I + 2`, each address masked on its own
(D2, log entry 11); every other byte of memory reads as before, `I` and everything else are unchanged. -/
def Obligations.DecimalDigitsStored : Prop :=
  ∀ (s : State) (x : Nibble),
    ∃ t, exec (.ldB x) s = .next t ∧ t.pc = s.pc + 2
      ∧ (Memory.read t.mem (memAddress (s.indexed 0))).toNat = (s.getV x).toNat / 100
      ∧ (Memory.read t.mem (memAddress (s.indexed 1))).toNat = (s.getV x).toNat / 10 % 10
      ∧ (Memory.read t.mem (memAddress (s.indexed 2))).toNat = (s.getV x).toNat % 10
      ∧ (∀ a, (∀ k, k ≤ 2 → a ≠ memAddress (s.indexed k)) → Memory.read t.mem a = Memory.read s.mem a)
      ∧ sameRegs s t ∧ sameIndex s t ∧ sameStack s t ∧ sameDisplay s t ∧ sameTimers s t ∧ sameControl s t

/-- R144: LD_MEM_VX stores registers 0 to `x` at `I` to `I + x`, each address masked on its own (D2, log entry 11), and
leaves `I + x + 1` in `I`; every other byte of memory reads as before and nothing else changes. -/
def Obligations.RegistersStored : Prop :=
  ∀ (s : State) (x : Nibble),
    ∃ t, exec (.ldMemVx x) s = .next t ∧ t.pc = s.pc + 2 ∧ t.i.toNat = (s.i.toNat + x.toNat + 1) % 65536
      ∧ (∀ k : Nibble, k.toNat ≤ x.toNat →
          Memory.read t.mem (memAddress (s.indexed k.toNat)) = s.getV k)
      ∧ (∀ a, (∀ k, k ≤ x.toNat → a ≠ memAddress (s.indexed k)) → Memory.read t.mem a = Memory.read s.mem a)
      ∧ sameRegs s t ∧ sameStack s t ∧ sameDisplay s t ∧ sameTimers s t ∧ sameControl s t

/-- R145: LD_VX_MEM loads registers 0 to `x` from `I` to `I + x`, each address masked on its own (D2, log entry 11),
leaves the registers above `x`, and leaves `I + x + 1` in `I`; memory and everything else are unchanged. -/
def Obligations.RegistersLoaded : Prop :=
  ∀ (s : State) (x : Nibble),
    ∃ t, exec (.ldVxMem x) s = .next t ∧ t.pc = s.pc + 2 ∧ t.i.toNat = (s.i.toNat + x.toNat + 1) % 65536
      ∧ (∀ k : Nibble, k.toNat ≤ x.toNat →
          t.getV k = Memory.read s.mem (memAddress (s.indexed k.toNat)))
      ∧ sameRegsExcept (fun r => r.toNat ≤ x.toNat) s t
      ∧ sameStack s t ∧ sameMemory s t ∧ sameDisplay s t ∧ sameTimers s t ∧ sameControl s t

/-! ### Random (43_random.md) -/

/-- R160: RND leaves a drawn byte under the mask `kk` in `V[x]`, for whatever the draw is, and consumes that draw, so
that the next one is fresh; every bit that is 0 in `kk` is 0; nothing else changes. The counter is the model's own
(log entry 4). -/
def Obligations.RandomByteUnderMask : Prop :=
  ∀ (s : State) (x : Nibble) (kk : Byte),
    ∃ t, exec (.rnd x kk) s = .next t ∧ t.getV x = (Config.draw s.draws &&& kk) ∧ t.draws = s.draws + 1
      ∧ (∀ k, kk.getLsbD k = false → (t.getV x).getLsbD k = false) ∧ t.pc = s.pc + 2
      ∧ sameRegsExcept (fun r => r = x) s t ∧ sameIndex s t ∧ sameStack s t ∧ sameMemory s t ∧ sameDisplay s t
      ∧ sameTimers s t ∧ sameRun s t ∧ sameDiag s t ∧ sameHostSide s t

/-! ### Display (44_display.md) -/

/-- R165: `00E0`, the pattern the source prints, decodes to CLS, which clears every byte of the framebuffer and changes
nothing else but `PC`; `VF` is unchanged. A family-0 word with other nibbles (that is not RET's either) is no
instruction. -/
def Obligations.ClearScreen : Prop :=
  decodeWord 0x00E0 = .ok .cls
  ∧ (∀ w : Word, w.toNat < 0x1000 → w ≠ 0x00E0 → w ≠ 0x00EE → ∃ e, decodeWord w = .error e)
  ∧ ∀ s : State, ∃ t, exec .cls s = .next t ∧ (∀ k : Fin 256, t.display[k.val] = 0) ∧ t.pc = s.pc + 2
      ∧ sameRegs s t ∧ sameIndex s t ∧ sameStack s t ∧ sameMemory s t ∧ sameTimers s t ∧ sameControl s t

/-- R166: after DRW every pixel is its old value exclusive-ored with the sprite bit over it, with wrap on both axes,
and `VF` is 1 exactly when some lit pixel lay under a set sprite bit, else 0; memory, `I` and everything else are
unchanged. Coordinates read before the clear of `VF` (D8, log entry 13), bit 7 leftmost (D9, log entry 15), masked
sprite addresses (D2, log entry 11) and no wait (D29, log entry 21) are the spec's choices. -/
def Obligations.DrawXorsSpriteIntoPixels : Prop :=
  ∀ (s : State) (x y n : Nibble),
    ∃ t, exec (.drw x y n) s = .next t ∧ t.pc = s.pc + 2
      ∧ (∀ px py, t.pixel px py =
          (s.pixel px py ^^ s.spriteOver (startColumn (s.getV x)) (startRow (s.getV y)) n.toNat px py))
      ∧ (t.getV vf = 0 ∨ t.getV vf = 1)
      ∧ (t.getV vf = 1 ↔ ∃ px py, s.pixel px py = true
          ∧ s.spriteOver (startColumn (s.getV x)) (startRow (s.getV y)) n.toNat px py = true)
      ∧ sameRegsExcept (fun r => r = vf) s t ∧ sameIndex s t ∧ sameStack s t ∧ sameMemory s t ∧ sameTimers s t
      ∧ sameControl s t

/-- R167: the same DRW executed twice restores the framebuffer byte for byte, and the second draw sets `VF` exactly
when the first left a pixel of the sprite lit. "The same" asks that both coordinates read the same at the second draw:
they do where neither register is `VF`, and where one is, whenever the first draw left `VF` as it was. -/
def Obligations.DrawingTwiceRestores : Prop :=
  ∀ (s : State) (x y n : Nibble),
    ∃ t, exec (.drw x y n) s = .next t
      ∧ (x ≠ vf → t.getV x = s.getV x) ∧ (y ≠ vf → t.getV y = s.getV y)
      ∧ (t.getV x = s.getV x → t.getV y = s.getV y →
          ∃ u, exec (.drw x y n) t = .next u ∧ u.display = s.display
            ∧ (u.getV vf = 1 ↔ ∃ px py, t.pixel px py = true
                ∧ s.spriteOver (startColumn (s.getV x)) (startRow (s.getV y)) n.toNat px py = true))

/-- R168: the pixel loop of DRW and the byte-level form give the same state, framebuffer and `VF` alike, at every
coordinate and every height 0 to 15. -/
def Obligations.PixelLoopEqualsByteForm : Prop :=
  ∀ (s : State) (x0 : Fin 64) (y0 : Fin 32) (n : Nibble),
    s.drawSprite x0 y0 n.toNat = (List.range n.toNat).foldl (State.blitRow x0 y0) (s.setV vf 0)

/-! ### Keys and timers (45_keys.md, 46_timers.md) -/

/-- R175, R176: SKP skips when the latch of the key in `V[x]` is set, SKNP when it is clear; that the key is the low
four bits of a larger `V[x]` is the spec's choice (D11, log entry 14); nothing else changes. -/
def Obligations.KeySkips : Prop :=
  ∀ (s : State) (x k : Nibble), k.toNat = (s.getV x).toNat % 16 →
    (∃ t, exec (.skp x) s = .next t ∧ t.pc = (if s.getKey k = true then s.pc + 4 else s.pc + 2) ∧ onlyPC s t)
    ∧ ∃ t, exec (.sknp x) s = .next t ∧ t.pc = (if s.getKey k = true then s.pc + 2 else s.pc + 4)
      ∧ onlyPC s t

/-- R177: LD_VX_K records `x` in `key_dest`, goes to AWAITING_KEY, hands the whole budget to the Timer Unit, zeroes the
budget, and leaves `PC = a + 2` and everything else, `V[x]` included, unchanged. It has no cost of its own by the
spec's choice (D24, log entry 3). -/
def Obligations.KeyWaitArmed : Prop :=
  ∀ (s : State) (x : Nibble),
    ∃ t, exec (.ldVxK x) s = .next t ∧ t.keyDest = x ∧ t.runState = .awaitingKey ∧ t.budget = 0
      ∧ t.timers = s.timers.advance s.budget ∧ t.pc = s.pc + 2
      ∧ sameRegs s t ∧ sameIndex s t ∧ sameStack s t ∧ sameMemory s t ∧ sameDisplay s t ∧ sameDiag s t
      ∧ sameHostSide s t ∧ sameDraws s t

/-- R185, R186, R187: LD_VX_DT copies `DT` to `V[x]`; LD_DT_VX and LD_ST_VX copy `V[x]` to `DT` and to `ST`, leaving
the other timer and the accumulator; nothing else changes but `PC`. -/
def Obligations.TimerAccess : Prop :=
  ∀ (s : State) (x : Nibble),
    (∃ t, exec (.ldVxDt x) s = .next t ∧ t.getV x = s.timers.dt ∧ t.pc = s.pc + 2
      ∧ onlyRegs (fun r => r = x) s t)
    ∧ (∃ t, exec (.ldDtVx x) s = .next t ∧ t.timers.dt = s.getV x ∧ t.timers.st = s.timers.st
      ∧ t.timers.acc = s.timers.acc ∧ t.pc = s.pc + 2
      ∧ sameRegs s t ∧ sameIndex s t ∧ sameStack s t ∧ sameMemory s t ∧ sameDisplay s t ∧ sameControl s t)
    ∧ ∃ t, exec (.ldStVx x) s = .next t ∧ t.timers.st = s.getV x ∧ t.timers.dt = s.timers.dt
      ∧ t.timers.acc = s.timers.acc ∧ t.pc = s.pc + 2
      ∧ sameRegs s t ∧ sameIndex s t ∧ sameStack s t ∧ sameMemory s t ∧ sameDisplay s t ∧ sameControl s t

/-! ### Timer Unit (60_exceptions.md) -/

/-- R225: at a tick each of `DT` and `ST` is one less, independently, and a timer at 0 stays 0. -/
def Obligations.TickCountsDown : Prop :=
  ∀ t : TimerUnit,
    t.tick.dt.toNat = (if 0 < t.dt.toNat then t.dt.toNat - 1 else 0)
    ∧ t.tick.st.toNat = (if 0 < t.st.toNat then t.st.toNat - 1 else 0) ∧ t.tick.acc = t.acc

/-- R226 (b): starting from `acc = 0`, calls of `TimerAdvance` whose arguments sum to D make `ceil(D / 16667)` ticks,
however D is cut into calls: both timers have gone down by that number, floored at 0. "Crosses zero" is read as
"becomes negative" by the spec's choice (D17, log entry 17). -/
def Obligations.TicksDependOnTotalTimeOnly : Prop :=
  ∀ (ds : List Nat) (t : TimerUnit), t.acc = 0 →
    (ds.foldl (fun u d => u.advance (d : Int)) t).acc = (((ds.sum + 16666) / 16667 * 16667 : Nat) : Int) - ds.sum
    ∧ (ds.foldl (fun u d => u.advance (d : Int)) t).dt.toNat = t.dt.toNat - (ds.sum + 16666) / 16667
    ∧ (ds.foldl (fun u d => u.advance (d : Int)) t).st.toNat = t.st.toNat - (ds.sum + 16666) / 16667

/-- R226 (a), R195: a machine that is not RUNNING, with `speed = 0`, ages each non-zero timer by exactly 1 in a frame of
16667 microseconds, whatever its accumulator in the invariant's range, and returns the accumulator to its value
(D16, D17, log entry 17). -/
def Obligations.OneTickPerFrameWhenNotRunning : Prop :=
  ∀ (s : State) (rest : List Transaction), s.runState ≠ .running → s.speed = 0 → s.accInRange →
    s.inbox = .frame 16667 :: rest →
    ∃ t, step s = .next t ∧ t.timers.acc = s.timers.acc ∧ t.timers.dt.toNat = s.timers.dt.toNat - 1
      ∧ t.timers.st.toNat = s.timers.st.toNat - 1 ∧ t.runState = s.runState ∧ t.budget = s.budget
      ∧ t.pc = s.pc ∧ sameRegs s t ∧ sameMemory s t ∧ sameDisplay s t

/-! ### Host transactions (60_exceptions.md, 70_reset_and_hazards.md) -/

/-- R241, R37: a program of at most 3584 bytes resets every element of the Machine State, from any state and for every
font: memory holds the font, the program and zeros, `PC = 0x200`, the machine is RUNNING, and everything else is 0.
`speed` is zeroed too by the spec's choice (D21, log entry 20); the parameter FONT (log entry 2) and the model's own
two fields stay. -/
def Obligations.LoadResetsEverything : Prop :=
  ∀ (s : State) (prog : List Byte), prog.length ≤ 3584 →
    (∀ j : Fin 80, Memory.read (s.load prog).mem (0x050 + j.val) = s.font[j.val])
    ∧ (∀ j, j < prog.length → Memory.read (s.load prog).mem (0x200 + j) = prog.getD j 0)
    ∧ (∀ a, a < 4096 → ¬(0x050 ≤ a ∧ a < 0x0A0) → ¬(0x200 ≤ a ∧ a < 0x200 + prog.length) →
        Memory.read (s.load prog).mem a = 0)
    ∧ (s.load prog).zeroed ∧ (s.load prog).pc = 0x200 ∧ (s.load prog).runState = .running
    ∧ (s.load prog).font = s.font ∧ (s.load prog).draws = s.draws ∧ (s.load prog).inbox = s.inbox

/-- R243: a program of up to exactly 4096 − 0x200 bytes is accepted and one a byte larger is not; after a load the 80 bytes
from 0x50 equal the font table, whatever its bytes are, memory from 0x200 equals the program, and `PC = 0x200`. -/
def Obligations.LoadAcceptsExactlyTheSpace : Prop :=
  ∀ (s : State) (prog : List Byte),
    (prog.length ≤ 4096 - 0x200 →
      (s.load prog).runState = .running ∧ (s.load prog).pc = 0x200
      ∧ (∀ j : Fin 80, Memory.read (s.load prog).mem (0x50 + j.val) = s.font[j.val])
      ∧ ∀ j, j < prog.length → Memory.read (s.load prog).mem (0x200 + j) = prog.getD j 0)
    ∧ (prog.length = 4096 - 0x200 + 1 → (s.load prog).runState ≠ .running)

/-- R242: a longer program is rejected: RUNNING and AWAITING_KEY become STOPPED, INIT and STOPPED stay, and nothing else
changes, the diagnostic included. That nothing else changes is the spec's choice (D20, log entry 20). -/
def Obligations.OversizedLoadRejected : Prop :=
  ∀ (s : State) (prog : List Byte), 3584 < prog.length →
    s.load prog = { s with runState := match s.runState with
      | .init => .init
      | .running => .stopped
      | .awaitingKey => .stopped
      | .stopped => .stopped }

/-- R221, R178: a KEY outside 0 to 15 changes nothing. A KEY of key `j` leaves its latch set after a press and clear
after a release, and every other latch as it was; a press, and a release outside AWAITING_KEY, changes nothing else; a
release in AWAITING_KEY also writes `j` into the register `key_dest` names and returns to RUNNING, and nothing else.
That any release ends the wait and that KEY acts in every run state are the spec's choices (D22, D23, log entry 18). -/
def Obligations.KeyTransaction : Prop :=
  ∀ (s : State) (k : Int) (ev : KeyEvent),
    (¬(0 ≤ k ∧ k ≤ 15) → s.keyEvent k ev = s)
    ∧ ∀ j : Nibble, k = (j.toNat : Int) →
        ((s.keyEvent k ev).getKey j = true ↔ ev = .pressed)
        ∧ (∀ c, c ≠ j → (s.keyEvent k ev).getKey c = s.getKey c)
        ∧ (ev = .pressed ∨ s.runState ≠ .awaitingKey → { s.keyEvent k ev with keys := s.keys } = s)
        ∧ (ev = .released → s.runState = .awaitingKey →
            (s.keyEvent k ev).runState = .running
            ∧ ((s.keyEvent k ev).getV s.keyDest).toNat = j.toNat
            ∧ sameRegsExcept (fun r => r = s.keyDest) s (s.keyEvent k ev)
            ∧ { s.keyEvent k ev with keys := s.keys, v := s.v, runState := s.runState } = s)

/-- R193, R195: the grant of a frame is `elapsed × (speed + 1)`; in RUNNING it is added to the budget and nothing else
changes; in the other states it all goes to the Timer Unit and nothing else changes (D16, log entry 17). -/
def Obligations.FrameGrant : Prop :=
  ∀ (s : State) (elapsed : Nat),
    (s.runState = .running →
      s.openFrame elapsed = { s with budget := s.budget + elapsed * (s.speed.val + 1) })
    ∧ (s.runState ≠ .running →
      s.openFrame elapsed = { s with timers := s.timers.advance (elapsed * (s.speed.val + 1)) })

/-- R197: SPEED moves `speed` one step and saturates at 7 and at 0 (D21, log entry 20); nothing else changes. -/
def Obligations.SpeedSaturates : Prop :=
  ∀ s : State,
    (s.changeSpeed .up).speed.val = (if s.speed.val = 7 then 7 else s.speed.val + 1)
    ∧ (s.changeSpeed .down).speed.val = (if s.speed.val = 0 then 0 else s.speed.val - 1)
    ∧ ∀ c, { s.changeSpeed c with speed := s.speed } = s

/-! ### Reset -/

/-- R37: the state after reset has every element at the LOAD column's value for an empty program, memory holding the
font's default bytes and zeros, and is what LOAD of an empty program leaves; the state after power-on has every element
at the power-on column's. Which of the two is the reset is the model's choice (log entry 1), the font's bytes are the
default of an open parameter (D26, log entry 2), and the power-on column is the spec's choice (D19, log entry 23). -/
def Obligations.ResetAndPowerOnValues : Prop :=
  State.reset.zeroed ∧ State.reset.pc = 0x200 ∧ State.reset.runState = .running
  ∧ (∀ a, a < 4096 → Memory.read State.reset.mem a =
      if 0x050 ≤ a ∧ a < 0x0A0 then fontTable.getD (a - 0x050) 0 else 0)
  ∧ (∀ s : State, s.font = State.reset.font →
      s.load [] = { State.reset with draws := s.draws, inbox := s.inbox })
  ∧ State.powerOn.zeroed ∧ State.powerOn.pc = 0 ∧ State.powerOn.runState = .init
  ∧ ∀ a, a < 4096 → Memory.read State.powerOn.mem a = 0

/-- The invariant holds in the two states of R37 as the model takes them (log entries 1 and 23). Its conditions on the
accumulator, the budget and the diagnostic are items 8, 6 and 7 of R35; the canonical form of memory is the model's own
(log entry 2). -/
def Obligations.InvariantAtReset : Prop := State.reset.Inv ∧ State.powerOn.Inv

/-! ### Memory (20_memory.md) -/

/-- R50, R60, R63: a read returns the last byte written to the same masked address, and a write changes no other; a byte
stored at `PC` or at `PC + 1` is a byte of the very next fetch. The 12-bit mask is the spec's choice (D2, log
entry 11). -/
def Obligations.StoreSeenByReadsAndFetch : Prop :=
  ∀ (s : State) (a c : Word) (b : Byte),
    (s.memWrite a b).memRead c = (if c.toNat % 4096 = a.toNat % 4096 then b else s.memRead c)
    ∧ (a.toNat % 4096 = s.pc.toNat % 4096 → Word.firstByte (s.memWrite a b).fetchWord = b)
    ∧ (a.toNat % 4096 = (s.pc.toNat + 1) % 4096 → Word.secondByte (s.memWrite a b).fetchWord = b)

/-- The canonical form of the model's memory (log entry 2) is one per contents: memories in it that read alike at every
address are equal data. -/
def Obligations.CanonicalMemoryIsUnique : Prop :=
  ∀ m m' : Memory, Memory.wf m → Memory.wf m' → (∀ a, Memory.read m a = Memory.read m' a) → m = m'

/-! ### Whole-machine rules -/

/-- Every step keeps the invariant, from every state that has it and not only from those a run reaches. Its conditions
on the accumulator, the budget and the diagnostic are items 8, 6 and 7 of R35; the canonical form of memory is the
model's own (log entry 2). -/
def Obligations.EveryStepKeepsInvariant : Prop :=
  ∀ s s' : State, s.Inv → step s = .next s' → s'.Inv

/-- R196: a frame ends: from a RUNNING state with a positive budget, at most that many steps lead to a state in which no
further instruction runs in the frame, whatever COST is, and no host transaction has been taken on the way. The bound
COST ≥ 1 is the spec's choice (D15, log entry 3). -/
def Obligations.EveryFrameEnds : Prop :=
  ∀ s : State, s.runState = .running → 0 < s.budget →
    ∃ (k : Nat) (t : State), 1 ≤ k ∧ (k : Int) ≤ s.budget ∧ Host.Core.run Sys2Proof.core k s = .next t
      ∧ ¬(t.runState = .running ∧ 0 < t.budget) ∧ t.inbox = s.inbox

/-- R217, R252: no step is a fault or a refusal: every state has a next state. A fatal condition is one too: the state
STOPPED (R213). -/
def Obligations.EveryStateHasANextState : Prop := ∀ s : State, ∃ t, step s = .next t

/-- R215: in STOPPED no instruction executes and nothing but a successful LOAD leaves it: any other step keeps STOPPED,
the diagnostic, the registers, `PC`, `I`, the stack, memory and the framebuffer. In every state, a step that changes
the diagnostic takes a successful LOAD from the waiting transactions or takes a RUNNING machine to STOPPED, so between
two LOADs it is written at most once. -/
def Obligations.StoppedUntilLoad : Prop :=
  ∀ s s' : State, step s = .next s' →
    (s.runState = .stopped →
      (∃ prog rest, s.inbox = .load prog :: rest ∧ prog.length ≤ 3584
        ∧ s'.inbox = rest ∧ s'.runState = .running)
      ∨ (s'.runState = .stopped ∧ sameDiag s s' ∧ s'.pc = s.pc ∧ sameRegs s s' ∧ sameIndex s s' ∧ sameStack s s'
          ∧ sameMemory s s' ∧ sameDisplay s s' ∧ sameDraws s s'))
    ∧ (s'.diag ≠ s.diag →
        (s.runState = .running ∧ s'.runState = .stopped)
        ∨ ∃ prog rest, s.inbox = .load prog :: rest ∧ prog.length ≤ 3584
            ∧ s'.inbox = rest ∧ s'.runState = .running)

/-- R190, R219, R40: while the machine is not RUNNING, `PC`, `I`, the stack, memory, the framebuffer, `key_dest` and
the budget change only by a successful LOAD, and no draw is consumed; a register changes only by that or by the release
that completes a key wait, whichever key it is (D22, log entry 18); `DT`, `ST` and the accumulator change only by that
or by a FRAME, which advances them by its grant (D16, log entry 17). -/
def Obligations.OnlyRunningExecutes : Prop :=
  ∀ s s' : State, s.runState ≠ .running → step s = .next s' →
    (∃ prog rest, s.inbox = .load prog :: rest ∧ prog.length ≤ 3584
      ∧ s'.inbox = rest ∧ s'.runState = .running)
    ∨ (s'.pc = s.pc ∧ sameIndex s s' ∧ sameStack s s' ∧ sameMemory s s' ∧ sameDisplay s s' ∧ sameDraws s s'
        ∧ s'.keyDest = s.keyDest ∧ s'.budget = s.budget
        ∧ (sameTimers s s' ∨ ∃ elapsed rest, s.inbox = .frame elapsed :: rest
            ∧ s'.timers = s.timers.advance (elapsed * (s.speed.val + 1)))
        ∧ (sameRegs s s' ∨ (s.runState = .awaitingKey ∧ s'.runState = .running
            ∧ sameRegsExcept (fun r => r = s.keyDest) s s'
            ∧ ∃ (j : Nibble) (rest : List Transaction), s.inbox = .key (j.toNat : Int) .released :: rest
                ∧ (s'.getV s.keyDest).toNat = j.toNat)))

/-- R192: a Step of a RUNNING machine takes no host transaction and has one of three outcomes: it stays RUNNING; it
becomes AWAITING_KEY, only by LD_VX_K; it becomes STOPPED by a fatal condition, and then `PC` (the advance), the run
state and the diagnostic are the only changes. -/
def Obligations.StepHasThreeOutcomes : Prop :=
  ∀ s s' : State, s.runState = .running → 0 < s.budget → step s = .next s' →
    sameHostSide s s'
    ∧ (s'.runState = .running
      ∨ (s'.runState = .awaitingKey ∧ ∃ x, decodeWord s.fetchWord = .ok (.ldVxK x))
      ∨ (s'.runState = .stopped ∧ s'.diag.valid = true
          ∧ s' = { s with pc := s.pc + 2, runState := .stopped, diag := s'.diag }))

/-- R198, R210, R218: which instruction changes the run state: LD_VX_K always, CALL exactly at depth 16, RET exactly at
depth 0, and no other; the diagnostic changes only where the machine stops. -/
def Obligations.RunStateChangedByThreeInstructions : Prop :=
  ∀ (i : Instr) (s t : State), s.runState = .running → exec i s = .next t →
    (t.runState = .awaitingKey ↔ ∃ x, i = .ldVxK x)
    ∧ (t.runState = .stopped ↔ (i = .ret ∧ s.sp.val = 0) ∨ (∃ nnn, i = .call nnn) ∧ s.sp.val = 16)
    ∧ t.runState ≠ .init ∧ (t.runState ≠ .stopped → t.diag = s.diag)

/-- R29, R40: no instruction writes the key latches or the speed; none takes a host transaction or changes the parameter
FONT, which stand in the model's state (log entries 5 and 2). -/
def Obligations.InstructionsLeaveHostSide : Prop :=
  ∀ (i : Instr) (s t : State), exec i s = .next t → sameHostSide s t

/-- R22: an instruction that changes `VF` is one of the nine kinds of the list or has `VF` as its named destination. -/
def Obligations.FlagWrittenOnlyByListed : Prop :=
  ∀ (i : Instr) (s t : State), exec i s = .next t → t.getV vf ≠ s.getV vf → i.mayWriteVF

/-- R23, R190: every instruction but JP, CALL, JP_V0 and RET leaves `PC = a + 2`, a skip possibly `a + 4`; that this is
modulo 65536 is the spec's choice (D3, log entry 12). -/
def Obligations.ProgramCounterAdvances : Prop :=
  ∀ (i : Instr) (s t : State), exec i s = .next t → ¬ i.replacesPC →
    t.pc = s.pc + 2 ∨ (i.isSkip ∧ t.pc = s.pc + 4)

/-- R25, R27, R55: only CALL and RET touch the stack, only CLS and DRW the framebuffer, and an instruction changes a
byte of memory only at an address it stores to. -/
def Obligations.StorageWrittenOnlyByItsInstructions : Prop :=
  ∀ (i : Instr) (s t : State), exec i s = .next t →
    (¬ i.usesStack → sameStack s t) ∧ (¬ i.drawsDisplay → sameDisplay s t)
    ∧ ∀ a, (∀ k, i.storesAt k → a ≠ memAddress (s.indexed k)) → Memory.read t.mem a = Memory.read s.mem a

/-- R7, R38: FONT is a parameter: no step, LOAD included, changes it. The model holds it in its state (log entry 2), so
that a statement about every state is one about every font. -/
def Obligations.FontParameterNeverChanges : Prop :=
  ∀ s s' : State, step s = .next s' → s'.font = s.font
end

