-- ==== Sys2Proof/Laws/Encoding.lean ====
section
/-! SUPPORT. The bits of the formats of spec 30_encoding.md R72, the fields the decoder reads from them, and the two
bytes a word is made of. -/

namespace Sys2Proof

/-! ### Bits of a format -/

theorem getLsbD_formatA (op : Nibble) (nnn : Addr12) (k : Nat) :
    (formatA op nnn).getLsbD k = if k < 12 then nnn.getLsbD k else op.getLsbD (k - 12) :=
  BitVec.getLsbD_append

theorem getLsbD_formatI (op x : Nibble) (kk : Byte) (k : Nat) :
    (formatI op x kk).getLsbD k =
      if k < 8 then kk.getLsbD k else if k < 12 then x.getLsbD (k - 8) else op.getLsbD (k - 12) := by
  have h : (formatI op x kk).getLsbD k = if k < 8 then kk.getLsbD k else (op ++ x).getLsbD (k - 8) :=
    BitVec.getLsbD_append
  have h5 : k - 8 - 4 = k - 12 := by omega
  rw [h, BitVec.getLsbD_append, h5]
  by_cases h8 : k < 8
  · simp only [h8, if_true]
  · have h12 : k - 8 < 4 ↔ k < 12 := by omega
    simp only [h8, h12, if_false]

theorem getLsbD_formatR (op x y n : Nibble) (k : Nat) :
    (formatR op x y n).getLsbD k =
      if k < 4 then n.getLsbD k else if k < 8 then y.getLsbD (k - 4)
      else if k < 12 then x.getLsbD (k - 8) else op.getLsbD (k - 12) := by
  have h : (formatR op x y n).getLsbD k = if k < 4 then n.getLsbD k else (op ++ x ++ y).getLsbD (k - 4) :=
    BitVec.getLsbD_append
  have h2 : k - 4 - 4 = k - 8 := by omega
  have h3 : k - 8 - 4 = k - 12 := by omega
  rw [h, BitVec.getLsbD_append, BitVec.getLsbD_append, h2, h3]
  by_cases h4 : k < 4
  · simp only [h4, if_true]
  · have h8 : k - 4 < 4 ↔ k < 8 := by omega
    by_cases h9 : k < 8
    · simp only [h4, h8, h9, if_false, if_true]
    · have h12 : k - 8 < 4 ↔ k < 12 := by omega
      simp only [h4, h8, h9, h12, if_false]

/-! ### Fields of a format -/

/-- A field of a word, bit by bit. -/
theorem extract_eq_of_bits {w : Word} {p l : Nat} {f : BitVec l}
    (h : ∀ k < l, w.getLsbD (p + k) = f.getLsbD k) : w.extractLsb' p l = f := by
  apply BitVec.eq_of_getLsbD_eq
  intro k hk
  rw [BitVec.getLsbD_extractLsb', h k hk]
  simp [hk]

@[simp] theorem fieldOp_formatA (op : Nibble) (nnn : Addr12) : Word.fieldOp (formatA op nnn) = op :=
  extract_eq_of_bits fun k hk => by
    rw [getLsbD_formatA, if_neg (by omega), Nat.add_sub_cancel_left]

@[simp] theorem fieldNnn_formatA (op : Nibble) (nnn : Addr12) : Word.fieldNnn (formatA op nnn) = nnn :=
  extract_eq_of_bits fun k hk => by
    rw [getLsbD_formatA, if_pos (by omega), Nat.zero_add]

@[simp] theorem fieldOp_formatI (op x : Nibble) (kk : Byte) : Word.fieldOp (formatI op x kk) = op :=
  extract_eq_of_bits fun k hk => by
    rw [getLsbD_formatI, if_neg (by omega), if_neg (by omega), Nat.add_sub_cancel_left]

@[simp] theorem fieldX_formatI (op x : Nibble) (kk : Byte) : Word.fieldX (formatI op x kk) = x :=
  extract_eq_of_bits fun k hk => by
    rw [getLsbD_formatI, if_neg (by omega), if_pos (by omega), Nat.add_sub_cancel_left]

@[simp] theorem fieldKk_formatI (op x : Nibble) (kk : Byte) : Word.fieldKk (formatI op x kk) = kk :=
  extract_eq_of_bits fun k hk => by
    rw [getLsbD_formatI, if_pos (by omega), Nat.zero_add]

@[simp] theorem fieldOp_formatR (op x y n : Nibble) : Word.fieldOp (formatR op x y n) = op :=
  extract_eq_of_bits fun k hk => by
    rw [getLsbD_formatR, if_neg (by omega), if_neg (by omega), if_neg (by omega), Nat.add_sub_cancel_left]

@[simp] theorem fieldX_formatR (op x y n : Nibble) : Word.fieldX (formatR op x y n) = x :=
  extract_eq_of_bits fun k hk => by
    rw [getLsbD_formatR, if_neg (by omega), if_neg (by omega), if_pos (by omega), Nat.add_sub_cancel_left]

@[simp] theorem fieldY_formatR (op x y n : Nibble) : Word.fieldY (formatR op x y n) = y :=
  extract_eq_of_bits fun k hk => by
    rw [getLsbD_formatR, if_neg (by omega), if_pos (by omega), Nat.add_sub_cancel_left]

@[simp] theorem fieldN_formatR (op x y n : Nibble) : Word.fieldN (formatR op x y n) = n :=
  extract_eq_of_bits fun k hk => by
    rw [getLsbD_formatR, if_pos (by omega), Nat.zero_add]

/-! ### A word is its fields -/

theorem getLsbD_fieldOp (w : Word) (k : Nat) (hk : k < 4) : (Word.fieldOp w).getLsbD k = w.getLsbD (12 + k) := by
  simp only [Word.fieldOp, BitVec.getLsbD_extractLsb']
  simp [hk]

theorem getLsbD_fieldX (w : Word) (k : Nat) (hk : k < 4) : (Word.fieldX w).getLsbD k = w.getLsbD (8 + k) := by
  simp only [Word.fieldX, BitVec.getLsbD_extractLsb']
  simp [hk]

theorem getLsbD_fieldY (w : Word) (k : Nat) (hk : k < 4) : (Word.fieldY w).getLsbD k = w.getLsbD (4 + k) := by
  simp only [Word.fieldY, BitVec.getLsbD_extractLsb']
  simp [hk]

theorem getLsbD_fieldN (w : Word) (k : Nat) (hk : k < 4) : (Word.fieldN w).getLsbD k = w.getLsbD k := by
  simp only [Word.fieldN, BitVec.getLsbD_extractLsb', Nat.zero_add]
  simp [hk]

theorem getLsbD_fieldKk (w : Word) (k : Nat) (hk : k < 8) : (Word.fieldKk w).getLsbD k = w.getLsbD k := by
  simp only [Word.fieldKk, BitVec.getLsbD_extractLsb', Nat.zero_add]
  simp [hk]

theorem getLsbD_fieldNnn (w : Word) (k : Nat) (hk : k < 12) : (Word.fieldNnn w).getLsbD k = w.getLsbD k := by
  simp only [Word.fieldNnn, BitVec.getLsbD_extractLsb', Nat.zero_add]
  simp [hk]

theorem formatA_fields (w : Word) : formatA (Word.fieldOp w) (Word.fieldNnn w) = w := by
  apply BitVec.eq_of_getLsbD_eq
  intro k hk
  rw [getLsbD_formatA]
  split
  · rw [getLsbD_fieldNnn _ _ (by omega)]
  · rw [getLsbD_fieldOp _ _ (by omega), Nat.add_sub_cancel' (by omega)]

theorem formatI_fields (w : Word) : formatI (Word.fieldOp w) (Word.fieldX w) (Word.fieldKk w) = w := by
  apply BitVec.eq_of_getLsbD_eq
  intro k hk
  rw [getLsbD_formatI]
  split
  · rw [getLsbD_fieldKk _ _ (by omega)]
  · split
    · rw [getLsbD_fieldX _ _ (by omega), Nat.add_sub_cancel' (by omega)]
    · rw [getLsbD_fieldOp _ _ (by omega), Nat.add_sub_cancel' (by omega)]

theorem formatR_fields (w : Word) :
    formatR (Word.fieldOp w) (Word.fieldX w) (Word.fieldY w) (Word.fieldN w) = w := by
  apply BitVec.eq_of_getLsbD_eq
  intro k hk
  rw [getLsbD_formatR]
  split
  · rw [getLsbD_fieldN _ _ (by omega)]
  · split
    · rw [getLsbD_fieldY _ _ (by omega), Nat.add_sub_cancel' (by omega)]
    · split
      · rw [getLsbD_fieldX _ _ (by omega), Nat.add_sub_cancel' (by omega)]
      · rw [getLsbD_fieldOp _ _ (by omega), Nat.add_sub_cancel' (by omega)]

/-! ### Fields as numbers -/

theorem fieldOp_toNat (w : Word) : (Word.fieldOp w).toNat = w.toNat / 4096 := by
  have := w.isLt
  simp only [Word.fieldOp, BitVec.extractLsb'_toNat, Nat.shiftRight_eq_div_pow]
  omega

theorem fieldX_toNat (w : Word) : (Word.fieldX w).toNat = w.toNat / 256 % 16 := by
  simp only [Word.fieldX, BitVec.extractLsb'_toNat, Nat.shiftRight_eq_div_pow, Nat.reducePow]

theorem fieldY_toNat (w : Word) : (Word.fieldY w).toNat = w.toNat / 16 % 16 := by
  simp only [Word.fieldY, BitVec.extractLsb'_toNat, Nat.shiftRight_eq_div_pow, Nat.reducePow]

theorem fieldN_toNat (w : Word) : (Word.fieldN w).toNat = w.toNat % 16 := by
  simp [Word.fieldN, BitVec.extractLsb'_toNat]

theorem fieldKk_toNat (w : Word) : (Word.fieldKk w).toNat = w.toNat % 256 := by
  simp [Word.fieldKk, BitVec.extractLsb'_toNat]

theorem fieldNnn_toNat (w : Word) : (Word.fieldNnn w).toNat = w.toNat % 4096 := by
  simp [Word.fieldNnn, BitVec.extractLsb'_toNat]

/-! ### A word is its two bytes -/

theorem getLsbD_wordOfBytes (first second : Byte) (k : Nat) :
    (wordOfBytes first second).getLsbD k = if k < 8 then second.getLsbD k else first.getLsbD (k - 8) := by
  exact BitVec.getLsbD_append

/-- The two bytes of a word, put together again, are the word. -/
@[simp] theorem wordOfBytes_bytes (w : Word) : wordOfBytes (Word.firstByte w) (Word.secondByte w) = w := by
  apply BitVec.eq_of_getLsbD_eq
  intro k hk
  rw [getLsbD_wordOfBytes]
  split
  · rename_i h
    simp only [Word.secondByte, BitVec.getLsbD_extractLsb', Nat.zero_add]
    simp [h]
  · rename_i h
    have h8 : k - 8 < 8 := by omega
    have hk8 : 8 + (k - 8) = k := by omega
    simp only [Word.firstByte, BitVec.getLsbD_extractLsb', hk8]
    simp [h8]

/-- The high half of a word of two bytes is the first. -/
@[simp] theorem firstByte_wordOfBytes (first second : Byte) : Word.firstByte (wordOfBytes first second) = first := by
  apply BitVec.eq_of_getLsbD_eq
  intro k hk
  simp only [Word.firstByte, BitVec.getLsbD_extractLsb', getLsbD_wordOfBytes, hk]
  simp

/-- The low half of a word of two bytes is the second. -/
@[simp] theorem secondByte_wordOfBytes (first second : Byte) : Word.secondByte (wordOfBytes first second) = second := by
  apply BitVec.eq_of_getLsbD_eq
  intro k hk
  simp only [Word.secondByte, BitVec.getLsbD_extractLsb', getLsbD_wordOfBytes, hk]
  simp [hk]

end Sys2Proof
end

