-- ==== Sys2Proof/Laws/State.lean ====
section
/-! SUPPORT. One lemma per field per update of the state, each true by unfolding, so that no later proof unfolds a
record update; the same for the accessors of registers, memory, key latches and pixels. -/

namespace Sys2Proof.Machine

variable (s : State)

/-! ### `State.setV` -/

@[simp] theorem State.setV_v (x : Nibble) (b : Byte) :
    (s.setV x b).v = s.v.set x.toNat b (nibble_lt x) := rfl

@[simp] theorem State.setV_pc (x : Nibble) (b : Byte) :
    (s.setV x b).pc = s.pc := rfl

@[simp] theorem State.setV_i (x : Nibble) (b : Byte) :
    (s.setV x b).i = s.i := rfl

@[simp] theorem State.setV_stack (x : Nibble) (b : Byte) :
    (s.setV x b).stack = s.stack := rfl

@[simp] theorem State.setV_sp (x : Nibble) (b : Byte) :
    (s.setV x b).sp = s.sp := rfl

@[simp] theorem State.setV_mem (x : Nibble) (b : Byte) :
    (s.setV x b).mem = s.mem := rfl

@[simp] theorem State.setV_display (x : Nibble) (b : Byte) :
    (s.setV x b).display = s.display := rfl

@[simp] theorem State.setV_timers (x : Nibble) (b : Byte) :
    (s.setV x b).timers = s.timers := rfl

@[simp] theorem State.setV_keys (x : Nibble) (b : Byte) :
    (s.setV x b).keys = s.keys := rfl

@[simp] theorem State.setV_runState (x : Nibble) (b : Byte) :
    (s.setV x b).runState = s.runState := rfl

@[simp] theorem State.setV_keyDest (x : Nibble) (b : Byte) :
    (s.setV x b).keyDest = s.keyDest := rfl

@[simp] theorem State.setV_budget (x : Nibble) (b : Byte) :
    (s.setV x b).budget = s.budget := rfl

@[simp] theorem State.setV_speed (x : Nibble) (b : Byte) :
    (s.setV x b).speed = s.speed := rfl

@[simp] theorem State.setV_diag (x : Nibble) (b : Byte) :
    (s.setV x b).diag = s.diag := rfl

@[simp] theorem State.setV_draws (x : Nibble) (b : Byte) :
    (s.setV x b).draws = s.draws := rfl

@[simp] theorem State.setV_inbox (x : Nibble) (b : Byte) :
    (s.setV x b).inbox = s.inbox := rfl

@[simp] theorem State.setV_font (x : Nibble) (b : Byte) :
    (s.setV x b).font = s.font := rfl

@[simp] theorem State.setV_memRead (x : Nibble) (b : Byte) (a : Word) :
    (s.setV x b).memRead a = s.memRead a := rfl

@[simp] theorem State.setV_getKey (x : Nibble) (b : Byte) (k : Nibble) :
    (s.setV x b).getKey k = s.getKey k := rfl

@[simp] theorem State.setV_pixel (x : Nibble) (b : Byte) (px : Fin 64) (py : Fin 32) :
    (s.setV x b).pixel px py = s.pixel px py := rfl

/-! ### `State.memWrite` -/

@[simp] theorem State.memWrite_v (p : Word) (b : Byte) :
    (s.memWrite p b).v = s.v := rfl

@[simp] theorem State.memWrite_pc (p : Word) (b : Byte) :
    (s.memWrite p b).pc = s.pc := rfl

@[simp] theorem State.memWrite_i (p : Word) (b : Byte) :
    (s.memWrite p b).i = s.i := rfl

@[simp] theorem State.memWrite_stack (p : Word) (b : Byte) :
    (s.memWrite p b).stack = s.stack := rfl

@[simp] theorem State.memWrite_sp (p : Word) (b : Byte) :
    (s.memWrite p b).sp = s.sp := rfl

@[simp] theorem State.memWrite_mem (p : Word) (b : Byte) :
    (s.memWrite p b).mem = Memory.write s.mem (memAddress p) b := rfl

@[simp] theorem State.memWrite_display (p : Word) (b : Byte) :
    (s.memWrite p b).display = s.display := rfl

@[simp] theorem State.memWrite_timers (p : Word) (b : Byte) :
    (s.memWrite p b).timers = s.timers := rfl

@[simp] theorem State.memWrite_keys (p : Word) (b : Byte) :
    (s.memWrite p b).keys = s.keys := rfl

@[simp] theorem State.memWrite_runState (p : Word) (b : Byte) :
    (s.memWrite p b).runState = s.runState := rfl

@[simp] theorem State.memWrite_keyDest (p : Word) (b : Byte) :
    (s.memWrite p b).keyDest = s.keyDest := rfl

@[simp] theorem State.memWrite_budget (p : Word) (b : Byte) :
    (s.memWrite p b).budget = s.budget := rfl

@[simp] theorem State.memWrite_speed (p : Word) (b : Byte) :
    (s.memWrite p b).speed = s.speed := rfl

@[simp] theorem State.memWrite_diag (p : Word) (b : Byte) :
    (s.memWrite p b).diag = s.diag := rfl

@[simp] theorem State.memWrite_draws (p : Word) (b : Byte) :
    (s.memWrite p b).draws = s.draws := rfl

@[simp] theorem State.memWrite_inbox (p : Word) (b : Byte) :
    (s.memWrite p b).inbox = s.inbox := rfl

@[simp] theorem State.memWrite_font (p : Word) (b : Byte) :
    (s.memWrite p b).font = s.font := rfl

@[simp] theorem State.memWrite_getV (p : Word) (b : Byte) (r : Nibble) :
    (s.memWrite p b).getV r = s.getV r := rfl

@[simp] theorem State.memWrite_getKey (p : Word) (b : Byte) (k : Nibble) :
    (s.memWrite p b).getKey k = s.getKey k := rfl

@[simp] theorem State.memWrite_pixel (p : Word) (b : Byte) (px : Fin 64) (py : Fin 32) :
    (s.memWrite p b).pixel px py = s.pixel px py := rfl

/-! ### `State.advancePC` -/

@[simp] theorem State.advancePC_v :
    (s.advancePC).v = s.v := rfl

@[simp] theorem State.advancePC_pc :
    (s.advancePC).pc = s.pc + 2 := rfl

@[simp] theorem State.advancePC_i :
    (s.advancePC).i = s.i := rfl

@[simp] theorem State.advancePC_stack :
    (s.advancePC).stack = s.stack := rfl

@[simp] theorem State.advancePC_sp :
    (s.advancePC).sp = s.sp := rfl

@[simp] theorem State.advancePC_mem :
    (s.advancePC).mem = s.mem := rfl

@[simp] theorem State.advancePC_display :
    (s.advancePC).display = s.display := rfl

@[simp] theorem State.advancePC_timers :
    (s.advancePC).timers = s.timers := rfl

@[simp] theorem State.advancePC_keys :
    (s.advancePC).keys = s.keys := rfl

@[simp] theorem State.advancePC_runState :
    (s.advancePC).runState = s.runState := rfl

@[simp] theorem State.advancePC_keyDest :
    (s.advancePC).keyDest = s.keyDest := rfl

@[simp] theorem State.advancePC_budget :
    (s.advancePC).budget = s.budget := rfl

@[simp] theorem State.advancePC_speed :
    (s.advancePC).speed = s.speed := rfl

@[simp] theorem State.advancePC_diag :
    (s.advancePC).diag = s.diag := rfl

@[simp] theorem State.advancePC_draws :
    (s.advancePC).draws = s.draws := rfl

@[simp] theorem State.advancePC_inbox :
    (s.advancePC).inbox = s.inbox := rfl

@[simp] theorem State.advancePC_font :
    (s.advancePC).font = s.font := rfl

@[simp] theorem State.advancePC_getV (r : Nibble) :
    (s.advancePC).getV r = s.getV r := rfl

@[simp] theorem State.advancePC_memRead (a : Word) :
    (s.advancePC).memRead a = s.memRead a := rfl

@[simp] theorem State.advancePC_getKey (k : Nibble) :
    (s.advancePC).getKey k = s.getKey k := rfl

@[simp] theorem State.advancePC_pixel (px : Fin 64) (py : Fin 32) :
    (s.advancePC).pixel px py = s.pixel px py := rfl

/-! ### `State.setPC` -/

@[simp] theorem State.setPC_v (p : Word) :
    (s.setPC p).v = s.v := rfl

@[simp] theorem State.setPC_pc (p : Word) :
    (s.setPC p).pc = p := rfl

@[simp] theorem State.setPC_i (p : Word) :
    (s.setPC p).i = s.i := rfl

@[simp] theorem State.setPC_stack (p : Word) :
    (s.setPC p).stack = s.stack := rfl

@[simp] theorem State.setPC_sp (p : Word) :
    (s.setPC p).sp = s.sp := rfl

@[simp] theorem State.setPC_mem (p : Word) :
    (s.setPC p).mem = s.mem := rfl

@[simp] theorem State.setPC_display (p : Word) :
    (s.setPC p).display = s.display := rfl

@[simp] theorem State.setPC_timers (p : Word) :
    (s.setPC p).timers = s.timers := rfl

@[simp] theorem State.setPC_keys (p : Word) :
    (s.setPC p).keys = s.keys := rfl

@[simp] theorem State.setPC_runState (p : Word) :
    (s.setPC p).runState = s.runState := rfl

@[simp] theorem State.setPC_keyDest (p : Word) :
    (s.setPC p).keyDest = s.keyDest := rfl

@[simp] theorem State.setPC_budget (p : Word) :
    (s.setPC p).budget = s.budget := rfl

@[simp] theorem State.setPC_speed (p : Word) :
    (s.setPC p).speed = s.speed := rfl

@[simp] theorem State.setPC_diag (p : Word) :
    (s.setPC p).diag = s.diag := rfl

@[simp] theorem State.setPC_draws (p : Word) :
    (s.setPC p).draws = s.draws := rfl

@[simp] theorem State.setPC_inbox (p : Word) :
    (s.setPC p).inbox = s.inbox := rfl

@[simp] theorem State.setPC_font (p : Word) :
    (s.setPC p).font = s.font := rfl

@[simp] theorem State.setPC_getV (p : Word) (r : Nibble) :
    (s.setPC p).getV r = s.getV r := rfl

@[simp] theorem State.setPC_memRead (p : Word) (a : Word) :
    (s.setPC p).memRead a = s.memRead a := rfl

@[simp] theorem State.setPC_getKey (p : Word) (k : Nibble) :
    (s.setPC p).getKey k = s.getKey k := rfl

@[simp] theorem State.setPC_pixel (p : Word) (px : Fin 64) (py : Fin 32) :
    (s.setPC p).pixel px py = s.pixel px py := rfl

/-! ### `State.setI` -/

@[simp] theorem State.setI_v (p : Word) :
    (s.setI p).v = s.v := rfl

@[simp] theorem State.setI_pc (p : Word) :
    (s.setI p).pc = s.pc := rfl

@[simp] theorem State.setI_i (p : Word) :
    (s.setI p).i = p := rfl

@[simp] theorem State.setI_stack (p : Word) :
    (s.setI p).stack = s.stack := rfl

@[simp] theorem State.setI_sp (p : Word) :
    (s.setI p).sp = s.sp := rfl

@[simp] theorem State.setI_mem (p : Word) :
    (s.setI p).mem = s.mem := rfl

@[simp] theorem State.setI_display (p : Word) :
    (s.setI p).display = s.display := rfl

@[simp] theorem State.setI_timers (p : Word) :
    (s.setI p).timers = s.timers := rfl

@[simp] theorem State.setI_keys (p : Word) :
    (s.setI p).keys = s.keys := rfl

@[simp] theorem State.setI_runState (p : Word) :
    (s.setI p).runState = s.runState := rfl

@[simp] theorem State.setI_keyDest (p : Word) :
    (s.setI p).keyDest = s.keyDest := rfl

@[simp] theorem State.setI_budget (p : Word) :
    (s.setI p).budget = s.budget := rfl

@[simp] theorem State.setI_speed (p : Word) :
    (s.setI p).speed = s.speed := rfl

@[simp] theorem State.setI_diag (p : Word) :
    (s.setI p).diag = s.diag := rfl

@[simp] theorem State.setI_draws (p : Word) :
    (s.setI p).draws = s.draws := rfl

@[simp] theorem State.setI_inbox (p : Word) :
    (s.setI p).inbox = s.inbox := rfl

@[simp] theorem State.setI_font (p : Word) :
    (s.setI p).font = s.font := rfl

@[simp] theorem State.setI_getV (p : Word) (r : Nibble) :
    (s.setI p).getV r = s.getV r := rfl

@[simp] theorem State.setI_memRead (p : Word) (a : Word) :
    (s.setI p).memRead a = s.memRead a := rfl

@[simp] theorem State.setI_getKey (p : Word) (k : Nibble) :
    (s.setI p).getKey k = s.getKey k := rfl

@[simp] theorem State.setI_pixel (p : Word) (px : Fin 64) (py : Fin 32) :
    (s.setI p).pixel px py = s.pixel px py := rfl

/-! ### `State.consumeDraw` -/

@[simp] theorem State.consumeDraw_v :
    (s.consumeDraw).v = s.v := rfl

@[simp] theorem State.consumeDraw_pc :
    (s.consumeDraw).pc = s.pc := rfl

@[simp] theorem State.consumeDraw_i :
    (s.consumeDraw).i = s.i := rfl

@[simp] theorem State.consumeDraw_stack :
    (s.consumeDraw).stack = s.stack := rfl

@[simp] theorem State.consumeDraw_sp :
    (s.consumeDraw).sp = s.sp := rfl

@[simp] theorem State.consumeDraw_mem :
    (s.consumeDraw).mem = s.mem := rfl

@[simp] theorem State.consumeDraw_display :
    (s.consumeDraw).display = s.display := rfl

@[simp] theorem State.consumeDraw_timers :
    (s.consumeDraw).timers = s.timers := rfl

@[simp] theorem State.consumeDraw_keys :
    (s.consumeDraw).keys = s.keys := rfl

@[simp] theorem State.consumeDraw_runState :
    (s.consumeDraw).runState = s.runState := rfl

@[simp] theorem State.consumeDraw_keyDest :
    (s.consumeDraw).keyDest = s.keyDest := rfl

@[simp] theorem State.consumeDraw_budget :
    (s.consumeDraw).budget = s.budget := rfl

@[simp] theorem State.consumeDraw_speed :
    (s.consumeDraw).speed = s.speed := rfl

@[simp] theorem State.consumeDraw_diag :
    (s.consumeDraw).diag = s.diag := rfl

@[simp] theorem State.consumeDraw_draws :
    (s.consumeDraw).draws = s.draws + 1 := rfl

@[simp] theorem State.consumeDraw_inbox :
    (s.consumeDraw).inbox = s.inbox := rfl

@[simp] theorem State.consumeDraw_font :
    (s.consumeDraw).font = s.font := rfl

@[simp] theorem State.consumeDraw_getV (r : Nibble) :
    (s.consumeDraw).getV r = s.getV r := rfl

@[simp] theorem State.consumeDraw_memRead (a : Word) :
    (s.consumeDraw).memRead a = s.memRead a := rfl

@[simp] theorem State.consumeDraw_getKey (k : Nibble) :
    (s.consumeDraw).getKey k = s.getKey k := rfl

@[simp] theorem State.consumeDraw_pixel (px : Fin 64) (py : Fin 32) :
    (s.consumeDraw).pixel px py = s.pixel px py := rfl

/-! ### `State.togglePixel` -/

@[simp] theorem State.togglePixel_v (qx : Fin 64) (qy : Fin 32) :
    (s.togglePixel qx qy).v = s.v := rfl

@[simp] theorem State.togglePixel_pc (qx : Fin 64) (qy : Fin 32) :
    (s.togglePixel qx qy).pc = s.pc := rfl

@[simp] theorem State.togglePixel_i (qx : Fin 64) (qy : Fin 32) :
    (s.togglePixel qx qy).i = s.i := rfl

@[simp] theorem State.togglePixel_stack (qx : Fin 64) (qy : Fin 32) :
    (s.togglePixel qx qy).stack = s.stack := rfl

@[simp] theorem State.togglePixel_sp (qx : Fin 64) (qy : Fin 32) :
    (s.togglePixel qx qy).sp = s.sp := rfl

@[simp] theorem State.togglePixel_mem (qx : Fin 64) (qy : Fin 32) :
    (s.togglePixel qx qy).mem = s.mem := rfl

@[simp] theorem State.togglePixel_timers (qx : Fin 64) (qy : Fin 32) :
    (s.togglePixel qx qy).timers = s.timers := rfl

@[simp] theorem State.togglePixel_keys (qx : Fin 64) (qy : Fin 32) :
    (s.togglePixel qx qy).keys = s.keys := rfl

@[simp] theorem State.togglePixel_runState (qx : Fin 64) (qy : Fin 32) :
    (s.togglePixel qx qy).runState = s.runState := rfl

@[simp] theorem State.togglePixel_keyDest (qx : Fin 64) (qy : Fin 32) :
    (s.togglePixel qx qy).keyDest = s.keyDest := rfl

@[simp] theorem State.togglePixel_budget (qx : Fin 64) (qy : Fin 32) :
    (s.togglePixel qx qy).budget = s.budget := rfl

@[simp] theorem State.togglePixel_speed (qx : Fin 64) (qy : Fin 32) :
    (s.togglePixel qx qy).speed = s.speed := rfl

@[simp] theorem State.togglePixel_diag (qx : Fin 64) (qy : Fin 32) :
    (s.togglePixel qx qy).diag = s.diag := rfl

@[simp] theorem State.togglePixel_draws (qx : Fin 64) (qy : Fin 32) :
    (s.togglePixel qx qy).draws = s.draws := rfl

@[simp] theorem State.togglePixel_inbox (qx : Fin 64) (qy : Fin 32) :
    (s.togglePixel qx qy).inbox = s.inbox := rfl

@[simp] theorem State.togglePixel_font (qx : Fin 64) (qy : Fin 32) :
    (s.togglePixel qx qy).font = s.font := rfl

@[simp] theorem State.togglePixel_getV (qx : Fin 64) (qy : Fin 32) (r : Nibble) :
    (s.togglePixel qx qy).getV r = s.getV r := rfl

@[simp] theorem State.togglePixel_memRead (qx : Fin 64) (qy : Fin 32) (a : Word) :
    (s.togglePixel qx qy).memRead a = s.memRead a := rfl

@[simp] theorem State.togglePixel_getKey (qx : Fin 64) (qy : Fin 32) (k : Nibble) :
    (s.togglePixel qx qy).getKey k = s.getKey k := rfl

/-! ### `State.clearDisplay` -/

@[simp] theorem State.clearDisplay_v :
    (s.clearDisplay).v = s.v := rfl

@[simp] theorem State.clearDisplay_pc :
    (s.clearDisplay).pc = s.pc := rfl

@[simp] theorem State.clearDisplay_i :
    (s.clearDisplay).i = s.i := rfl

@[simp] theorem State.clearDisplay_stack :
    (s.clearDisplay).stack = s.stack := rfl

@[simp] theorem State.clearDisplay_sp :
    (s.clearDisplay).sp = s.sp := rfl

@[simp] theorem State.clearDisplay_mem :
    (s.clearDisplay).mem = s.mem := rfl

@[simp] theorem State.clearDisplay_display :
    (s.clearDisplay).display = Vector.replicate 256 0 := rfl

@[simp] theorem State.clearDisplay_timers :
    (s.clearDisplay).timers = s.timers := rfl

@[simp] theorem State.clearDisplay_keys :
    (s.clearDisplay).keys = s.keys := rfl

@[simp] theorem State.clearDisplay_runState :
    (s.clearDisplay).runState = s.runState := rfl

@[simp] theorem State.clearDisplay_keyDest :
    (s.clearDisplay).keyDest = s.keyDest := rfl

@[simp] theorem State.clearDisplay_budget :
    (s.clearDisplay).budget = s.budget := rfl

@[simp] theorem State.clearDisplay_speed :
    (s.clearDisplay).speed = s.speed := rfl

@[simp] theorem State.clearDisplay_diag :
    (s.clearDisplay).diag = s.diag := rfl

@[simp] theorem State.clearDisplay_draws :
    (s.clearDisplay).draws = s.draws := rfl

@[simp] theorem State.clearDisplay_inbox :
    (s.clearDisplay).inbox = s.inbox := rfl

@[simp] theorem State.clearDisplay_font :
    (s.clearDisplay).font = s.font := rfl

@[simp] theorem State.clearDisplay_getV (r : Nibble) :
    (s.clearDisplay).getV r = s.getV r := rfl

@[simp] theorem State.clearDisplay_memRead (a : Word) :
    (s.clearDisplay).memRead a = s.memRead a := rfl

@[simp] theorem State.clearDisplay_getKey (k : Nibble) :
    (s.clearDisplay).getKey k = s.getKey k := rfl

/-! ### `State.setKey` -/

@[simp] theorem State.setKey_v (j : Nibble) (down : Bool) :
    (s.setKey j down).v = s.v := rfl

@[simp] theorem State.setKey_pc (j : Nibble) (down : Bool) :
    (s.setKey j down).pc = s.pc := rfl

@[simp] theorem State.setKey_i (j : Nibble) (down : Bool) :
    (s.setKey j down).i = s.i := rfl

@[simp] theorem State.setKey_stack (j : Nibble) (down : Bool) :
    (s.setKey j down).stack = s.stack := rfl

@[simp] theorem State.setKey_sp (j : Nibble) (down : Bool) :
    (s.setKey j down).sp = s.sp := rfl

@[simp] theorem State.setKey_mem (j : Nibble) (down : Bool) :
    (s.setKey j down).mem = s.mem := rfl

@[simp] theorem State.setKey_display (j : Nibble) (down : Bool) :
    (s.setKey j down).display = s.display := rfl

@[simp] theorem State.setKey_timers (j : Nibble) (down : Bool) :
    (s.setKey j down).timers = s.timers := rfl

@[simp] theorem State.setKey_keys (j : Nibble) (down : Bool) :
    (s.setKey j down).keys = s.keys.set j.toNat down (nibble_lt j) := rfl

@[simp] theorem State.setKey_runState (j : Nibble) (down : Bool) :
    (s.setKey j down).runState = s.runState := rfl

@[simp] theorem State.setKey_keyDest (j : Nibble) (down : Bool) :
    (s.setKey j down).keyDest = s.keyDest := rfl

@[simp] theorem State.setKey_budget (j : Nibble) (down : Bool) :
    (s.setKey j down).budget = s.budget := rfl

@[simp] theorem State.setKey_speed (j : Nibble) (down : Bool) :
    (s.setKey j down).speed = s.speed := rfl

@[simp] theorem State.setKey_diag (j : Nibble) (down : Bool) :
    (s.setKey j down).diag = s.diag := rfl

@[simp] theorem State.setKey_draws (j : Nibble) (down : Bool) :
    (s.setKey j down).draws = s.draws := rfl

@[simp] theorem State.setKey_inbox (j : Nibble) (down : Bool) :
    (s.setKey j down).inbox = s.inbox := rfl

@[simp] theorem State.setKey_font (j : Nibble) (down : Bool) :
    (s.setKey j down).font = s.font := rfl

@[simp] theorem State.setKey_getV (j : Nibble) (down : Bool) (r : Nibble) :
    (s.setKey j down).getV r = s.getV r := rfl

@[simp] theorem State.setKey_memRead (j : Nibble) (down : Bool) (a : Word) :
    (s.setKey j down).memRead a = s.memRead a := rfl

@[simp] theorem State.setKey_pixel (j : Nibble) (down : Bool) (px : Fin 64) (py : Fin 32) :
    (s.setKey j down).pixel px py = s.pixel px py := rfl

/-! ### `State.timerAdvance` -/

@[simp] theorem State.timerAdvance_v (d : Int) :
    (s.timerAdvance d).v = s.v := by
  unfold State.timerAdvance
  rfl

@[simp] theorem State.timerAdvance_pc (d : Int) :
    (s.timerAdvance d).pc = s.pc := by
  unfold State.timerAdvance
  rfl

@[simp] theorem State.timerAdvance_i (d : Int) :
    (s.timerAdvance d).i = s.i := by
  unfold State.timerAdvance
  rfl

@[simp] theorem State.timerAdvance_stack (d : Int) :
    (s.timerAdvance d).stack = s.stack := by
  unfold State.timerAdvance
  rfl

@[simp] theorem State.timerAdvance_sp (d : Int) :
    (s.timerAdvance d).sp = s.sp := by
  unfold State.timerAdvance
  rfl

@[simp] theorem State.timerAdvance_mem (d : Int) :
    (s.timerAdvance d).mem = s.mem := by
  unfold State.timerAdvance
  rfl

@[simp] theorem State.timerAdvance_display (d : Int) :
    (s.timerAdvance d).display = s.display := by
  unfold State.timerAdvance
  rfl

@[simp] theorem State.timerAdvance_timers (d : Int) :
    (s.timerAdvance d).timers = s.timers.advance d := by
  unfold State.timerAdvance
  rfl

@[simp] theorem State.timerAdvance_keys (d : Int) :
    (s.timerAdvance d).keys = s.keys := by
  unfold State.timerAdvance
  rfl

@[simp] theorem State.timerAdvance_runState (d : Int) :
    (s.timerAdvance d).runState = s.runState := by
  unfold State.timerAdvance
  rfl

@[simp] theorem State.timerAdvance_keyDest (d : Int) :
    (s.timerAdvance d).keyDest = s.keyDest := by
  unfold State.timerAdvance
  rfl

@[simp] theorem State.timerAdvance_budget (d : Int) :
    (s.timerAdvance d).budget = s.budget := by
  unfold State.timerAdvance
  rfl

@[simp] theorem State.timerAdvance_speed (d : Int) :
    (s.timerAdvance d).speed = s.speed := by
  unfold State.timerAdvance
  rfl

@[simp] theorem State.timerAdvance_diag (d : Int) :
    (s.timerAdvance d).diag = s.diag := by
  unfold State.timerAdvance
  rfl

@[simp] theorem State.timerAdvance_draws (d : Int) :
    (s.timerAdvance d).draws = s.draws := by
  unfold State.timerAdvance
  rfl

@[simp] theorem State.timerAdvance_inbox (d : Int) :
    (s.timerAdvance d).inbox = s.inbox := by
  unfold State.timerAdvance
  rfl

@[simp] theorem State.timerAdvance_font (d : Int) :
    (s.timerAdvance d).font = s.font := by
  unfold State.timerAdvance
  rfl

@[simp] theorem State.timerAdvance_getV (d : Int) (r : Nibble) :
    (s.timerAdvance d).getV r = s.getV r := by
  simp only [State.getV, State.timerAdvance_v]

@[simp] theorem State.timerAdvance_memRead (d : Int) (a : Word) :
    (s.timerAdvance d).memRead a = s.memRead a := by
  simp only [State.memRead, State.timerAdvance_mem]

@[simp] theorem State.timerAdvance_getKey (d : Int) (k : Nibble) :
    (s.timerAdvance d).getKey k = s.getKey k := by
  simp only [State.getKey, State.timerAdvance_keys]

@[simp] theorem State.timerAdvance_pixel (d : Int) (px : Fin 64) (py : Fin 32) :
    (s.timerAdvance d).pixel px py = s.pixel px py := by
  simp only [State.pixel, State.timerAdvance_display]

/-! ### `State.setDT` -/

@[simp] theorem State.setDT_v (b : Byte) :
    (s.setDT b).v = s.v := rfl

@[simp] theorem State.setDT_pc (b : Byte) :
    (s.setDT b).pc = s.pc := rfl

@[simp] theorem State.setDT_i (b : Byte) :
    (s.setDT b).i = s.i := rfl

@[simp] theorem State.setDT_stack (b : Byte) :
    (s.setDT b).stack = s.stack := rfl

@[simp] theorem State.setDT_sp (b : Byte) :
    (s.setDT b).sp = s.sp := rfl

@[simp] theorem State.setDT_mem (b : Byte) :
    (s.setDT b).mem = s.mem := rfl

@[simp] theorem State.setDT_display (b : Byte) :
    (s.setDT b).display = s.display := rfl

@[simp] theorem State.setDT_timers (b : Byte) :
    (s.setDT b).timers = { s.timers with dt := b } := rfl

@[simp] theorem State.setDT_keys (b : Byte) :
    (s.setDT b).keys = s.keys := rfl

@[simp] theorem State.setDT_runState (b : Byte) :
    (s.setDT b).runState = s.runState := rfl

@[simp] theorem State.setDT_keyDest (b : Byte) :
    (s.setDT b).keyDest = s.keyDest := rfl

@[simp] theorem State.setDT_budget (b : Byte) :
    (s.setDT b).budget = s.budget := rfl

@[simp] theorem State.setDT_speed (b : Byte) :
    (s.setDT b).speed = s.speed := rfl

@[simp] theorem State.setDT_diag (b : Byte) :
    (s.setDT b).diag = s.diag := rfl

@[simp] theorem State.setDT_draws (b : Byte) :
    (s.setDT b).draws = s.draws := rfl

@[simp] theorem State.setDT_inbox (b : Byte) :
    (s.setDT b).inbox = s.inbox := rfl

@[simp] theorem State.setDT_font (b : Byte) :
    (s.setDT b).font = s.font := rfl

@[simp] theorem State.setDT_getV (b : Byte) (r : Nibble) :
    (s.setDT b).getV r = s.getV r := rfl

@[simp] theorem State.setDT_memRead (b : Byte) (a : Word) :
    (s.setDT b).memRead a = s.memRead a := rfl

@[simp] theorem State.setDT_getKey (b : Byte) (k : Nibble) :
    (s.setDT b).getKey k = s.getKey k := rfl

@[simp] theorem State.setDT_pixel (b : Byte) (px : Fin 64) (py : Fin 32) :
    (s.setDT b).pixel px py = s.pixel px py := rfl

/-! ### `State.setST` -/

@[simp] theorem State.setST_v (b : Byte) :
    (s.setST b).v = s.v := rfl

@[simp] theorem State.setST_pc (b : Byte) :
    (s.setST b).pc = s.pc := rfl

@[simp] theorem State.setST_i (b : Byte) :
    (s.setST b).i = s.i := rfl

@[simp] theorem State.setST_stack (b : Byte) :
    (s.setST b).stack = s.stack := rfl

@[simp] theorem State.setST_sp (b : Byte) :
    (s.setST b).sp = s.sp := rfl

@[simp] theorem State.setST_mem (b : Byte) :
    (s.setST b).mem = s.mem := rfl

@[simp] theorem State.setST_display (b : Byte) :
    (s.setST b).display = s.display := rfl

@[simp] theorem State.setST_timers (b : Byte) :
    (s.setST b).timers = { s.timers with st := b } := rfl

@[simp] theorem State.setST_keys (b : Byte) :
    (s.setST b).keys = s.keys := rfl

@[simp] theorem State.setST_runState (b : Byte) :
    (s.setST b).runState = s.runState := rfl

@[simp] theorem State.setST_keyDest (b : Byte) :
    (s.setST b).keyDest = s.keyDest := rfl

@[simp] theorem State.setST_budget (b : Byte) :
    (s.setST b).budget = s.budget := rfl

@[simp] theorem State.setST_speed (b : Byte) :
    (s.setST b).speed = s.speed := rfl

@[simp] theorem State.setST_diag (b : Byte) :
    (s.setST b).diag = s.diag := rfl

@[simp] theorem State.setST_draws (b : Byte) :
    (s.setST b).draws = s.draws := rfl

@[simp] theorem State.setST_inbox (b : Byte) :
    (s.setST b).inbox = s.inbox := rfl

@[simp] theorem State.setST_font (b : Byte) :
    (s.setST b).font = s.font := rfl

@[simp] theorem State.setST_getV (b : Byte) (r : Nibble) :
    (s.setST b).getV r = s.getV r := rfl

@[simp] theorem State.setST_memRead (b : Byte) (a : Word) :
    (s.setST b).memRead a = s.memRead a := rfl

@[simp] theorem State.setST_getKey (b : Byte) (k : Nibble) :
    (s.setST b).getKey k = s.getKey k := rfl

@[simp] theorem State.setST_pixel (b : Byte) (px : Fin 64) (py : Fin 32) :
    (s.setST b).pixel px py = s.pixel px py := rfl

/-! ### `State.charge` -/

@[simp] theorem State.charge_v (c : Nat) :
    (s.charge c).v = s.v := by
  unfold State.charge
  rfl

@[simp] theorem State.charge_pc (c : Nat) :
    (s.charge c).pc = s.pc := by
  unfold State.charge
  rfl

@[simp] theorem State.charge_i (c : Nat) :
    (s.charge c).i = s.i := by
  unfold State.charge
  rfl

@[simp] theorem State.charge_stack (c : Nat) :
    (s.charge c).stack = s.stack := by
  unfold State.charge
  rfl

@[simp] theorem State.charge_sp (c : Nat) :
    (s.charge c).sp = s.sp := by
  unfold State.charge
  rfl

@[simp] theorem State.charge_mem (c : Nat) :
    (s.charge c).mem = s.mem := by
  unfold State.charge
  rfl

@[simp] theorem State.charge_display (c : Nat) :
    (s.charge c).display = s.display := by
  unfold State.charge
  rfl

@[simp] theorem State.charge_timers (c : Nat) :
    (s.charge c).timers = s.timers.advance c := by
  unfold State.charge
  rfl

@[simp] theorem State.charge_keys (c : Nat) :
    (s.charge c).keys = s.keys := by
  unfold State.charge
  rfl

@[simp] theorem State.charge_runState (c : Nat) :
    (s.charge c).runState = s.runState := by
  unfold State.charge
  rfl

@[simp] theorem State.charge_keyDest (c : Nat) :
    (s.charge c).keyDest = s.keyDest := by
  unfold State.charge
  rfl

@[simp] theorem State.charge_budget (c : Nat) :
    (s.charge c).budget = s.budget - c := by
  unfold State.charge
  rfl

@[simp] theorem State.charge_speed (c : Nat) :
    (s.charge c).speed = s.speed := by
  unfold State.charge
  rfl

@[simp] theorem State.charge_diag (c : Nat) :
    (s.charge c).diag = s.diag := by
  unfold State.charge
  rfl

@[simp] theorem State.charge_draws (c : Nat) :
    (s.charge c).draws = s.draws := by
  unfold State.charge
  rfl

@[simp] theorem State.charge_inbox (c : Nat) :
    (s.charge c).inbox = s.inbox := by
  unfold State.charge
  rfl

@[simp] theorem State.charge_font (c : Nat) :
    (s.charge c).font = s.font := by
  unfold State.charge
  rfl

@[simp] theorem State.charge_getV (c : Nat) (r : Nibble) :
    (s.charge c).getV r = s.getV r := by
  simp only [State.getV, State.charge_v]

@[simp] theorem State.charge_memRead (c : Nat) (a : Word) :
    (s.charge c).memRead a = s.memRead a := by
  simp only [State.memRead, State.charge_mem]

@[simp] theorem State.charge_getKey (c : Nat) (k : Nibble) :
    (s.charge c).getKey k = s.getKey k := by
  simp only [State.getKey, State.charge_keys]

@[simp] theorem State.charge_pixel (c : Nat) (px : Fin 64) (py : Fin 32) :
    (s.charge c).pixel px py = s.pixel px py := by
  simp only [State.pixel, State.charge_display]

/-! ### `State.fatal` -/

@[simp] theorem State.fatal_v (cause : FatalCause) (p w : Word) :
    (s.fatal cause p w).v = s.v := rfl

@[simp] theorem State.fatal_pc (cause : FatalCause) (p w : Word) :
    (s.fatal cause p w).pc = s.pc := rfl

@[simp] theorem State.fatal_i (cause : FatalCause) (p w : Word) :
    (s.fatal cause p w).i = s.i := rfl

@[simp] theorem State.fatal_stack (cause : FatalCause) (p w : Word) :
    (s.fatal cause p w).stack = s.stack := rfl

@[simp] theorem State.fatal_sp (cause : FatalCause) (p w : Word) :
    (s.fatal cause p w).sp = s.sp := rfl

@[simp] theorem State.fatal_mem (cause : FatalCause) (p w : Word) :
    (s.fatal cause p w).mem = s.mem := rfl

@[simp] theorem State.fatal_display (cause : FatalCause) (p w : Word) :
    (s.fatal cause p w).display = s.display := rfl

@[simp] theorem State.fatal_timers (cause : FatalCause) (p w : Word) :
    (s.fatal cause p w).timers = s.timers := rfl

@[simp] theorem State.fatal_keys (cause : FatalCause) (p w : Word) :
    (s.fatal cause p w).keys = s.keys := rfl

@[simp] theorem State.fatal_runState (cause : FatalCause) (p w : Word) :
    (s.fatal cause p w).runState = .stopped := rfl

@[simp] theorem State.fatal_keyDest (cause : FatalCause) (p w : Word) :
    (s.fatal cause p w).keyDest = s.keyDest := rfl

@[simp] theorem State.fatal_budget (cause : FatalCause) (p w : Word) :
    (s.fatal cause p w).budget = s.budget := rfl

@[simp] theorem State.fatal_speed (cause : FatalCause) (p w : Word) :
    (s.fatal cause p w).speed = s.speed := rfl

@[simp] theorem State.fatal_diag (cause : FatalCause) (p w : Word) :
    (s.fatal cause p w).diag = { valid := true, cause := cause.code, addr := p, word := w } := rfl

@[simp] theorem State.fatal_draws (cause : FatalCause) (p w : Word) :
    (s.fatal cause p w).draws = s.draws := rfl

@[simp] theorem State.fatal_inbox (cause : FatalCause) (p w : Word) :
    (s.fatal cause p w).inbox = s.inbox := rfl

@[simp] theorem State.fatal_font (cause : FatalCause) (p w : Word) :
    (s.fatal cause p w).font = s.font := rfl

@[simp] theorem State.fatal_getV (cause : FatalCause) (p w : Word) (r : Nibble) :
    (s.fatal cause p w).getV r = s.getV r := rfl

@[simp] theorem State.fatal_memRead (cause : FatalCause) (p w : Word) (a : Word) :
    (s.fatal cause p w).memRead a = s.memRead a := rfl

@[simp] theorem State.fatal_getKey (cause : FatalCause) (p w : Word) (k : Nibble) :
    (s.fatal cause p w).getKey k = s.getKey k := rfl

@[simp] theorem State.fatal_pixel (cause : FatalCause) (p w : Word) (px : Fin 64) (py : Fin 32) :
    (s.fatal cause p w).pixel px py = s.pixel px py := rfl

/-! ### `State.awaitKey` -/

@[simp] theorem State.awaitKey_v (x : Nibble) :
    (s.awaitKey x).v = s.v := by
  unfold State.awaitKey
  rfl

@[simp] theorem State.awaitKey_pc (x : Nibble) :
    (s.awaitKey x).pc = s.pc := by
  unfold State.awaitKey
  rfl

@[simp] theorem State.awaitKey_i (x : Nibble) :
    (s.awaitKey x).i = s.i := by
  unfold State.awaitKey
  rfl

@[simp] theorem State.awaitKey_stack (x : Nibble) :
    (s.awaitKey x).stack = s.stack := by
  unfold State.awaitKey
  rfl

@[simp] theorem State.awaitKey_sp (x : Nibble) :
    (s.awaitKey x).sp = s.sp := by
  unfold State.awaitKey
  rfl

@[simp] theorem State.awaitKey_mem (x : Nibble) :
    (s.awaitKey x).mem = s.mem := by
  unfold State.awaitKey
  rfl

@[simp] theorem State.awaitKey_display (x : Nibble) :
    (s.awaitKey x).display = s.display := by
  unfold State.awaitKey
  rfl

@[simp] theorem State.awaitKey_timers (x : Nibble) :
    (s.awaitKey x).timers = s.timers.advance s.budget := by
  unfold State.awaitKey
  rfl

@[simp] theorem State.awaitKey_keys (x : Nibble) :
    (s.awaitKey x).keys = s.keys := by
  unfold State.awaitKey
  rfl

@[simp] theorem State.awaitKey_runState (x : Nibble) :
    (s.awaitKey x).runState = .awaitingKey := by
  unfold State.awaitKey
  rfl

@[simp] theorem State.awaitKey_keyDest (x : Nibble) :
    (s.awaitKey x).keyDest = x := by
  unfold State.awaitKey
  rfl

@[simp] theorem State.awaitKey_budget (x : Nibble) :
    (s.awaitKey x).budget = 0 := by
  unfold State.awaitKey
  rfl

@[simp] theorem State.awaitKey_speed (x : Nibble) :
    (s.awaitKey x).speed = s.speed := by
  unfold State.awaitKey
  rfl

@[simp] theorem State.awaitKey_diag (x : Nibble) :
    (s.awaitKey x).diag = s.diag := by
  unfold State.awaitKey
  rfl

@[simp] theorem State.awaitKey_draws (x : Nibble) :
    (s.awaitKey x).draws = s.draws := by
  unfold State.awaitKey
  rfl

@[simp] theorem State.awaitKey_inbox (x : Nibble) :
    (s.awaitKey x).inbox = s.inbox := by
  unfold State.awaitKey
  rfl

@[simp] theorem State.awaitKey_font (x : Nibble) :
    (s.awaitKey x).font = s.font := by
  unfold State.awaitKey
  rfl

@[simp] theorem State.awaitKey_getV (x : Nibble) (r : Nibble) :
    (s.awaitKey x).getV r = s.getV r := by
  simp only [State.getV, State.awaitKey_v]

@[simp] theorem State.awaitKey_memRead (x : Nibble) (a : Word) :
    (s.awaitKey x).memRead a = s.memRead a := by
  simp only [State.memRead, State.awaitKey_mem]

@[simp] theorem State.awaitKey_getKey (x : Nibble) (k : Nibble) :
    (s.awaitKey x).getKey k = s.getKey k := by
  simp only [State.getKey, State.awaitKey_keys]

@[simp] theorem State.awaitKey_pixel (x : Nibble) (px : Fin 64) (py : Fin 32) :
    (s.awaitKey x).pixel px py = s.pixel px py := by
  simp only [State.pixel, State.awaitKey_display]

/-! ### `State.setResultAndFlag` -/

@[simp] theorem State.setResultAndFlag_pc (x : Nibble) (b f : Byte) :
    (s.setResultAndFlag x b f).pc = s.pc := rfl

@[simp] theorem State.setResultAndFlag_i (x : Nibble) (b f : Byte) :
    (s.setResultAndFlag x b f).i = s.i := rfl

@[simp] theorem State.setResultAndFlag_stack (x : Nibble) (b f : Byte) :
    (s.setResultAndFlag x b f).stack = s.stack := rfl

@[simp] theorem State.setResultAndFlag_sp (x : Nibble) (b f : Byte) :
    (s.setResultAndFlag x b f).sp = s.sp := rfl

@[simp] theorem State.setResultAndFlag_mem (x : Nibble) (b f : Byte) :
    (s.setResultAndFlag x b f).mem = s.mem := rfl

@[simp] theorem State.setResultAndFlag_display (x : Nibble) (b f : Byte) :
    (s.setResultAndFlag x b f).display = s.display := rfl

@[simp] theorem State.setResultAndFlag_timers (x : Nibble) (b f : Byte) :
    (s.setResultAndFlag x b f).timers = s.timers := rfl

@[simp] theorem State.setResultAndFlag_keys (x : Nibble) (b f : Byte) :
    (s.setResultAndFlag x b f).keys = s.keys := rfl

@[simp] theorem State.setResultAndFlag_runState (x : Nibble) (b f : Byte) :
    (s.setResultAndFlag x b f).runState = s.runState := rfl

@[simp] theorem State.setResultAndFlag_keyDest (x : Nibble) (b f : Byte) :
    (s.setResultAndFlag x b f).keyDest = s.keyDest := rfl

@[simp] theorem State.setResultAndFlag_budget (x : Nibble) (b f : Byte) :
    (s.setResultAndFlag x b f).budget = s.budget := rfl

@[simp] theorem State.setResultAndFlag_speed (x : Nibble) (b f : Byte) :
    (s.setResultAndFlag x b f).speed = s.speed := rfl

@[simp] theorem State.setResultAndFlag_diag (x : Nibble) (b f : Byte) :
    (s.setResultAndFlag x b f).diag = s.diag := rfl

@[simp] theorem State.setResultAndFlag_draws (x : Nibble) (b f : Byte) :
    (s.setResultAndFlag x b f).draws = s.draws := rfl

@[simp] theorem State.setResultAndFlag_inbox (x : Nibble) (b f : Byte) :
    (s.setResultAndFlag x b f).inbox = s.inbox := rfl

@[simp] theorem State.setResultAndFlag_font (x : Nibble) (b f : Byte) :
    (s.setResultAndFlag x b f).font = s.font := rfl

@[simp] theorem State.setResultAndFlag_memRead (x : Nibble) (b f : Byte) (a : Word) :
    (s.setResultAndFlag x b f).memRead a = s.memRead a := rfl

@[simp] theorem State.setResultAndFlag_getKey (x : Nibble) (b f : Byte) (k : Nibble) :
    (s.setResultAndFlag x b f).getKey k = s.getKey k := rfl

@[simp] theorem State.setResultAndFlag_pixel (x : Nibble) (b f : Byte) (px : Fin 64) (py : Fin 32) :
    (s.setResultAndFlag x b f).pixel px py = s.pixel px py := rfl

/-! ### `State.skipIf` -/

@[simp] theorem State.skipIf_v (c : Bool) :
    (s.skipIf c).v = s.v := by
  cases c <;> rfl

@[simp] theorem State.skipIf_pc (c : Bool) :
    (s.skipIf c).pc = if c then s.pc + 2 else s.pc := by
  cases c <;> rfl

@[simp] theorem State.skipIf_i (c : Bool) :
    (s.skipIf c).i = s.i := by
  cases c <;> rfl

@[simp] theorem State.skipIf_stack (c : Bool) :
    (s.skipIf c).stack = s.stack := by
  cases c <;> rfl

@[simp] theorem State.skipIf_sp (c : Bool) :
    (s.skipIf c).sp = s.sp := by
  cases c <;> rfl

@[simp] theorem State.skipIf_mem (c : Bool) :
    (s.skipIf c).mem = s.mem := by
  cases c <;> rfl

@[simp] theorem State.skipIf_display (c : Bool) :
    (s.skipIf c).display = s.display := by
  cases c <;> rfl

@[simp] theorem State.skipIf_timers (c : Bool) :
    (s.skipIf c).timers = s.timers := by
  cases c <;> rfl

@[simp] theorem State.skipIf_keys (c : Bool) :
    (s.skipIf c).keys = s.keys := by
  cases c <;> rfl

@[simp] theorem State.skipIf_runState (c : Bool) :
    (s.skipIf c).runState = s.runState := by
  cases c <;> rfl

@[simp] theorem State.skipIf_keyDest (c : Bool) :
    (s.skipIf c).keyDest = s.keyDest := by
  cases c <;> rfl

@[simp] theorem State.skipIf_budget (c : Bool) :
    (s.skipIf c).budget = s.budget := by
  cases c <;> rfl

@[simp] theorem State.skipIf_speed (c : Bool) :
    (s.skipIf c).speed = s.speed := by
  cases c <;> rfl

@[simp] theorem State.skipIf_diag (c : Bool) :
    (s.skipIf c).diag = s.diag := by
  cases c <;> rfl

@[simp] theorem State.skipIf_draws (c : Bool) :
    (s.skipIf c).draws = s.draws := by
  cases c <;> rfl

@[simp] theorem State.skipIf_inbox (c : Bool) :
    (s.skipIf c).inbox = s.inbox := by
  cases c <;> rfl

@[simp] theorem State.skipIf_font (c : Bool) :
    (s.skipIf c).font = s.font := by
  cases c <;> rfl

@[simp] theorem State.skipIf_getV (c : Bool) (r : Nibble) :
    (s.skipIf c).getV r = s.getV r := by
  cases c <;> rfl

@[simp] theorem State.skipIf_memRead (c : Bool) (a : Word) :
    (s.skipIf c).memRead a = s.memRead a := by
  cases c <;> rfl

@[simp] theorem State.skipIf_getKey (c : Bool) (k : Nibble) :
    (s.skipIf c).getKey k = s.getKey k := by
  cases c <;> rfl

@[simp] theorem State.skipIf_pixel (c : Bool) (px : Fin 64) (py : Fin 32) :
    (s.skipIf c).pixel px py = s.pixel px py := by
  cases c <;> rfl

end Sys2Proof.Machine
end

