-- ==== Sys2Proof/Laws/Memory.lean ====
section
/-! SUPPORT. The laws of memory: a read after a write, and that every memory operation keeps the canonical form. -/

namespace Sys2Proof.Machine

/-! ### Reading after writing -/

theorem Memory.read_filter_other (m : Memory) {a c : Nat} (h : c ≠ a) :
    Memory.read (m.filter fun d => d.1 ≠ a) c = Memory.read m c := by
  induction m with
  | nil => rfl
  | cons d rest ih =>
    obtain ⟨k, b⟩ := d
    by_cases hk : k = a
    · subst hk
      simpa [Memory.read, Ne.symm h] using ih
    · have hf : ((k, b) :: rest).filter (fun d => d.1 ≠ a) = (k, b) :: rest.filter (fun d => d.1 ≠ a) := by
        simp [hk]
      simp only [hf, Memory.read, ih]

theorem Memory.read_filter_same (m : Memory) (a : Nat) :
    Memory.read (m.filter fun d => d.1 ≠ a) a = unlistedByte a := by
  induction m with
  | nil => rfl
  | cons d rest ih =>
    obtain ⟨k, b⟩ := d
    by_cases hk : k = a
    · subst hk
      simpa using ih
    · have hf : ((k, b) :: rest).filter (fun d => d.1 ≠ a) = (k, b) :: rest.filter (fun d => d.1 ≠ a) := by
        simp [hk]
      simp only [hf, Memory.read, hk, ih, if_false]

theorem Memory.read_insert_other (m : Memory) {a c : Nat} (b : Byte) (h : c ≠ a) :
    Memory.read (Memory.insert (a, b) m) c = Memory.read m c := by
  induction m with
  | nil => simp [Memory.insert, Memory.read, Ne.symm h]
  | cons d rest ih =>
    obtain ⟨k, e⟩ := d
    simp only [Memory.insert]
    split
    · simp [Memory.read, Ne.symm h]
    · simp only [Memory.read, ih]

theorem Memory.read_insert_same (m : Memory) (a : Nat) (b : Byte) (h : ∀ c ∈ m, c.1 ≠ a) :
    Memory.read (Memory.insert (a, b) m) a = b := by
  induction m with
  | nil => simp [Memory.insert, Memory.read]
  | cons d rest ih =>
    obtain ⟨k, e⟩ := d
    simp only [Memory.insert]
    split
    · simp [Memory.read]
    · have hk : k ≠ a := h (k, e) (by simp)
      simp only [Memory.read, hk, if_false]
      exact ih fun c hc => h c (by simp [hc])

theorem Memory.read_write_same (m : Memory) (a : Nat) (b : Byte) :
    Memory.read (Memory.write m a b) a = b := by
  simp only [Memory.write]
  split
  · rename_i hb
    rw [Memory.read_filter_same, hb]
  · exact Memory.read_insert_same _ _ _ (by simp)

theorem Memory.read_write_other (m : Memory) {a c : Nat} (b : Byte) (h : c ≠ a) :
    Memory.read (Memory.write m a b) c = Memory.read m c := by
  simp only [Memory.write]
  split
  · exact Memory.read_filter_other m h
  · rw [Memory.read_insert_other _ _ h]
    exact Memory.read_filter_other m h

theorem Memory.read_write (m : Memory) (a c : Nat) (b : Byte) :
    Memory.read (Memory.write m a b) c = if c = a then b else Memory.read m c := by
  by_cases h : c = a
  · subst h
    simp [Memory.read_write_same]
  · simp [h, Memory.read_write_other]

/-- What consecutive writes leave: inside the range the byte written, outside it the old one. -/
theorem Memory.read_writeBytes (bs : List Byte) (m : Memory) (a c : Nat) :
    Memory.read (Memory.writeBytes m a bs) c =
      if a ≤ c ∧ c < a + bs.length then bs.getD (c - a) 0 else Memory.read m c := by
  induction bs generalizing m a with
  | nil => simp [Memory.writeBytes]
  | cons b bs ih =>
    rw [Memory.writeBytes, ih, Memory.read_write]
    by_cases h1 : a + 1 ≤ c ∧ c < a + 1 + bs.length
    · have h2 : a ≤ c ∧ c < a + (b :: bs).length := by simp; omega
      have h3 : c - a = (c - (a + 1)) + 1 := by omega
      simp only [if_pos h1, if_pos h2, h3, List.getD_cons_succ]
    · by_cases h2 : c = a
      · subst h2
        simp
      · have h3 : ¬(a ≤ c ∧ c < a + (b :: bs).length) := by simp; omega
        rw [if_neg h1, if_neg h3, if_neg h2]

/-! ### The canonical form -/

theorem Memory.mem_insert (m : Memory) (c d : Host.Cell) : d ∈ Memory.insert c m ↔ d = c ∨ d ∈ m := by
  induction m with
  | nil => simp [Memory.insert]
  | cons e rest ih =>
    simp only [Memory.insert]
    split
    · simp
    · simp only [List.mem_cons, ih]
      tauto

theorem Memory.pairwise_insert (m : Memory) (c : Host.Cell) (h : m.Pairwise fun d e => d.1 < e.1)
    (hc : ∀ d ∈ m, d.1 ≠ c.1) : (Memory.insert c m).Pairwise fun d e => d.1 < e.1 := by
  induction m with
  | nil => simp [Memory.insert]
  | cons e rest ih =>
    rw [List.pairwise_cons] at h
    simp only [Memory.insert]
    split
    · rename_i hlt
      refine List.pairwise_cons.2 ⟨?_, List.pairwise_cons.2 h⟩
      intro d hd
      rcases List.mem_cons.1 hd with rfl | hd
      · exact hlt
      · exact hlt.trans (h.1 d hd)
    · rename_i hge
      refine List.pairwise_cons.2 ⟨?_, ih h.2 fun d hd => hc d (by simp [hd])⟩
      intro d hd
      rcases (Memory.mem_insert rest c d).1 hd with rfl | hd
      · have := hc e (by simp)
        omega
      · exact h.1 d hd

theorem Memory.wf_nil : Memory.wf [] := by simp [Memory.wf]

theorem Memory.wf_filter {m : Memory} (h : Memory.wf m) (p : Host.Cell → Bool) : Memory.wf (m.filter p) :=
  ⟨h.1.filter p, fun c hc => h.2 c (List.mem_filter.1 hc).1⟩

theorem Memory.wf_write {m : Memory} (h : Memory.wf m) {a : Nat} (ha : a < Config.memSize) (b : Byte) :
    Memory.wf (Memory.write m a b) := by
  simp only [Memory.write]
  split
  · exact Memory.wf_filter h _
  · rename_i hb
    refine ⟨Memory.pairwise_insert _ _ (Memory.wf_filter h _).1 (by simp), ?_⟩
    intro c hc
    rcases (Memory.mem_insert _ _ c).1 hc with rfl | hc
    · exact ⟨ha, hb⟩
    · exact (Memory.wf_filter h _).2 c hc

theorem Memory.wf_writeBytes (bs : List Byte) {m : Memory} (h : Memory.wf m) {a : Nat}
    (ha : a + bs.length ≤ Config.memSize) : Memory.wf (Memory.writeBytes m a bs) := by
  induction bs generalizing m a with
  | nil => exact h
  | cons b bs ih =>
    simp only [List.length_cons] at ha
    exact ih (Memory.wf_write h (by omega) b) (by omega)

/-! ### What LOAD leaves in memory -/

/-- A byte after LOAD: the program, else the font, else 0. -/
theorem read_loadedMemory (font : Vector Byte 80) (prog : List Byte) (a : Nat) :
    Memory.read (loadedMemory font prog) a =
      if 0x200 ≤ a ∧ a < 0x200 + prog.length then prog.getD (a - 0x200) 0
      else if 0x050 ≤ a ∧ a < 0x0A0 then font.toList.getD (a - 0x050) 0 else 0 := by
  rw [loadedMemory, Memory.read_writeBytes, Memory.read_writeBytes, Vector.length_toList]
  split
  · rfl
  · split
    · rfl
    · rename_i h
      exact if_neg h

/-- Memory after LOAD is in canonical form. -/
theorem loadedMemory_wf (font : Vector Byte 80) {prog : List Byte} (h : prog.length ≤ Config.progMax) :
    Memory.wf (loadedMemory font prog) :=
  Memory.wf_writeBytes _ (Memory.wf_writeBytes _ Memory.wf_nil (by simp [Config.fontBase, Config.memSize]))
    (by simp only [Config.progMax, Config.progBase, Config.memSize] at *; omega)

/-- With the default font and no program nothing is listed. -/
@[simp] theorem loadedMemory_default : loadedMemory defaultFont [] = [] := by decide +kernel

/-! ### The machine's accesses -/

theorem memAddress_eq (a : Word) : memAddress a = a.toNat % 4096 := by
  have h : (0x0FFF#16).toNat = 2 ^ 12 - 1 := by decide
  rw [memAddress, BitVec.toNat_and, h, Nat.and_two_pow_sub_one_eq_mod]

theorem memAddress_lt (a : Word) : memAddress a < Config.memSize := by
  rw [memAddress_eq]
  exact Nat.mod_lt _ (by decide)

/-- Every store of an instruction keeps the canonical form. -/
theorem State.memWrite_keeps_wf (s : State) (a : Word) (b : Byte) (h : Memory.wf s.mem) :
    Memory.wf (s.memWrite a b).mem := Memory.wf_write h (memAddress_lt a) b

theorem State.memRead_memWrite (s : State) (a c : Word) (b : Byte) :
    (s.memWrite a b).memRead c = if memAddress c = memAddress a then b else s.memRead c :=
  Memory.read_write _ _ _ _

end Sys2Proof.Machine
end

