-- ==== Sys2Proof/Laws/Ops.lean ====
section
/-! SUPPORT. What each shared operation can do, said once: registers, key latches, pixels, the call stack, the Timer
Unit, and the frames of the loops of LD_B, LD_MEM_VX, LD_VX_MEM and DRW. -/

namespace Sys2Proof.Machine

/-! ### Registers and key latches -/

theorem State.getV_setV (s : State) (x r : Nibble) (b : Byte) :
    (s.setV x b).getV r = if r = x then b else s.getV r := by
  simp only [State.getV, State.setV, Vector.getElem_set, ← BitVec.toNat_inj, eq_comm]

@[simp] theorem State.getV_setV_same (s : State) (x : Nibble) (b : Byte) : (s.setV x b).getV x = b := by
  simp [State.getV_setV]

theorem State.getV_setV_other (s : State) {x r : Nibble} (b : Byte) (h : r ≠ x) :
    (s.setV x b).getV r = s.getV r := by
  simp [State.getV_setV, h]

/-- The flag is written last, so register 15 always ends with the flag. -/
@[simp] theorem State.getV_setResultAndFlag_vf (s : State) (x : Nibble) (b f : Byte) :
    (s.setResultAndFlag x b f).getV vf = f := State.getV_setV_same _ _ _

theorem State.getV_setResultAndFlag (s : State) (x r : Nibble) (b f : Byte) :
    (s.setResultAndFlag x b f).getV r = if r = vf then f else if r = x then b else s.getV r := by
  rw [State.setResultAndFlag, State.getV_setV, State.getV_setV]

theorem State.getKey_setKey (s : State) (j k : Nibble) (down : Bool) :
    (s.setKey j down).getKey k = if k = j then down else s.getKey k := by
  simp only [State.getKey, State.setKey, Vector.getElem_set, ← BitVec.toNat_inj, eq_comm]

/-! ### The call stack -/

/-- A push succeeds below depth 16 and writes one entry. -/
theorem State.push_of_lt (s : State) (a : Word) (h : s.sp.val < 16) :
    s.push a = some { s with stack := s.stack.set s.sp.val a h, sp := ⟨s.sp.val + 1, by omega⟩ } := by
  simp only [State.push, h, dif_pos]

/-- A push fails at depth 16. -/
theorem State.push_full (s : State) (a : Word) (h : s.sp.val = 16) : s.push a = none := by
  simp [State.push, h]

/-- A pop succeeds on a stack that holds an entry. -/
theorem State.pop_of_pos (s : State) (h : 0 < s.sp.val) :
    s.pop = some (s.stack[s.sp.val - 1]'(by have := s.sp.isLt; omega),
      { s with sp := ⟨s.sp.val - 1, by have := s.sp.isLt; omega⟩ }) := by
  simp only [State.pop, h, dif_pos]

/-- A pop fails on an empty stack. -/
theorem State.pop_empty (s : State) (h : s.sp.val = 0) : s.pop = none := by
  simp [State.pop, h]

/-! ### LOAD -/

/-- A LOAD that fits answers the reset state with font and program placed, but for the parameter FONT and the model's
own two fields. -/
theorem State.load_of_le (s : State) (prog : List Byte) (h : prog.length ≤ Config.progMax) :
    s.load prog = { State.reset with
      mem := loadedMemory s.font prog
      draws := s.draws
      inbox := s.inbox
      font := s.font } := by
  simp only [State.load, h, if_true]

/-- A LOAD that does not fit changes at most the run state, to STOPPED. -/
theorem State.load_of_gt (s : State) (prog : List Byte) (h : ¬ prog.length ≤ Config.progMax) :
    s.load prog = s ∨ s.load prog = { s with runState := .stopped } := by
  simp only [State.load, h, if_false]
  split
  · exact .inr rfl
  · exact .inl rfl

/-! ### Pixels -/

theorem pixelIndex_inj {px qx : Fin 64} {py qy : Fin 32} (hi : pixelIndex px py = pixelIndex qx qy)
    (hb : pixelBit px = pixelBit qx) : px = qx ∧ py = qy := by
  have h : py.val * 8 + px.val / 8 = qy.val * 8 + qx.val / 8 := congrArg Fin.val hi
  simp only [pixelBit] at hb
  omega

theorem pixelBit_lt (px : Fin 64) : pixelBit px < 8 := by
  simp only [pixelBit]
  omega

/-- Toggling one pixel toggles that pixel and no other. -/
theorem State.pixel_togglePixel (s : State) (px qx : Fin 64) (py qy : Fin 32) :
    (s.togglePixel qx qy).pixel px py = (s.pixel px py ^^ decide (px = qx ∧ py = qy)) := by
  have hq := pixelBit_lt qx
  have hp := pixelBit_lt px
  simp only [State.pixel, State.togglePixel, Vector.getElem_set]
  by_cases hi : (pixelIndex qx qy).val = (pixelIndex px py).val
  · rw [if_pos hi, BitVec.getLsbD_xor]
    have hs : s.display[(pixelIndex qx qy).val] = s.display[(pixelIndex px py).val] := by simp only [hi]
    rw [hs]
    congr 1
    have hone : ∀ i < 8, ∀ j < 8, (1#8 <<< i).getLsbD j = decide (j = i) := by decide
    rw [hone _ hq _ hp]
    congr 1
    apply propext
    constructor
    · intro hb
      exact pixelIndex_inj (Fin.ext hi.symm) hb
    · rintro ⟨rfl, rfl⟩
      rfl
  · rw [if_neg hi]
    have hne : ¬(px = qx ∧ py = qy) := by
      rintro ⟨rfl, rfl⟩
      exact hi rfl
    simp [hne]

/-! ### The Timer Unit -/

theorem countDown_toNat (b : Byte) : (countDown b).toNat = b.toNat - 1 := by
  simp only [countDown]
  split
  · rw [BitVec.toNat_sub]
    have := b.isLt
    simp
    omega
  · omega

/-- The loop of `TimerAdvance`, given passes enough: `n` ticks, after which the accumulator is not negative. -/
theorem TimerUnit.rearm_spec (k : Nat) (t : TimerUnit) (hk : -t.acc ≤ 16667 * k) :
    ∃ n : Nat, (TimerUnit.rearm k t).acc = t.acc + 16667 * n ∧ 0 ≤ (TimerUnit.rearm k t).acc
      ∧ (n = 0 ∨ (TimerUnit.rearm k t).acc < 16667)
      ∧ (TimerUnit.rearm k t).dt.toNat = t.dt.toNat - n ∧ (TimerUnit.rearm k t).st.toNat = t.st.toNat - n := by
  induction k generalizing t with
  | zero => exact ⟨0, by simp [TimerUnit.rearm]; omega⟩
  | succ k ih =>
    rw [TimerUnit.rearm]
    split
    · rename_i hneg
      have hacc : t.tick.acc = t.acc := rfl
      obtain ⟨n, h1, h2, h3, h4, h5⟩ :=
        ih { t.tick with acc := t.tick.acc + Config.timerPeriod } (by simp only [hacc, Config.timerPeriod]; omega)
      refine ⟨n + 1, ?_, h2, ?_, ?_, ?_⟩
      · rw [h1]
        simp only [hacc, Config.timerPeriod]
        push_cast
        ring
      · right
        rcases h3 with rfl | h3
        · rw [h1]
          simp only [hacc, Config.timerPeriod]
          omega
        · exact h3
      · rw [h4]
        simp only [TimerUnit.tick, countDown_toNat]
        omega
      · rw [h5]
        simp only [TimerUnit.tick, countDown_toNat]
        omega
    · exact ⟨0, by omega⟩

/-- `TimerAdvance(d)`: some number `n` of ticks, the fewest that bring the accumulator back to 0 or above. -/
theorem TimerUnit.advance_spec (t : TimerUnit) (d : Int) :
    ∃ n : Nat, (t.advance d).acc = t.acc - d + 16667 * n ∧ 0 ≤ (t.advance d).acc
      ∧ (n = 0 ∨ (t.advance d).acc < 16667)
      ∧ (t.advance d).dt.toNat = t.dt.toNat - n ∧ (t.advance d).st.toNat = t.st.toNat - n :=
  TimerUnit.rearm_spec _ _ (by simp only [rearmPasses]; omega)

/-- A non-negative `TimerAdvance` keeps the accumulator's range (R35 item 8). -/
theorem TimerUnit.advance_acc_range (t : TimerUnit) (d : Int) (hd : 0 ≤ d) (h : t.acc ≤ 16666) :
    0 ≤ (t.advance d).acc ∧ (t.advance d).acc ≤ 16666 := by
  obtain ⟨n, h1, h2, h3, -, -⟩ := t.advance_spec d
  refine ⟨h2, ?_⟩
  rcases h3 with rfl | h3 <;> omega

/-! ### Frames of the loops -/

/-- A property that every pass keeps holds after the loop. -/
theorem foldl_keeps {α : Type} (P : State → Prop) (f : State → α → State) (hf : ∀ s a, P s → P (f s a))
    (l : List α) (s : State) (h : P s) : P (l.foldl f s) := by
  induction l generalizing s with
  | nil => exact h
  | cons a l ih => exact ih _ (hf _ _ h)

/-- `t` differs from `s` in memory only. -/
def State.sameButMemory (s t : State) : Prop := ∃ m, t = { s with mem := m }

/-- `t` differs from `s` in the registers only. -/
def State.sameButRegs (s t : State) : Prop := ∃ w, t = { s with v := w }

/-- `t` differs from `s` in the registers and the framebuffer only. -/
def State.sameButDrawing (s t : State) : Prop := ∃ w d, t = { s with v := w, display := d }

theorem State.storeRegisters_frame (l : List Nat) (s : State) :
    s.sameButMemory (l.foldl State.storeRegister s) :=
  foldl_keeps (fun t => s.sameButMemory t) _
    (fun t k ⟨m, hm⟩ => ⟨Memory.write m (memAddress (t.indexed k)) (t.getV (registerNumber k)), by
      subst hm
      rfl⟩) l s ⟨s.mem, rfl⟩

theorem State.loadRegisters_frame (l : List Nat) (s : State) :
    s.sameButRegs (l.foldl State.loadRegister s) :=
  foldl_keeps (fun t => s.sameButRegs t) _
    (fun t k ⟨w, hw⟩ => ⟨(t.loadRegister k).v, by
      subst hw
      rfl⟩) l s ⟨s.v, rfl⟩

theorem State.xorPixel_frame (s : State) (px : Fin 64) (py : Fin 32) : s.sameButDrawing (s.xorPixel px py) := by
  simp only [State.xorPixel]
  split
  · exact ⟨_, _, rfl⟩
  · exact ⟨s.v, _, rfl⟩

theorem State.sameButDrawing_trans {s t u : State} (h : s.sameButDrawing t) (g : t.sameButDrawing u) :
    s.sameButDrawing u := by
  obtain ⟨w, d, rfl⟩ := h
  obtain ⟨w', d', rfl⟩ := g
  exact ⟨w', d', rfl⟩

theorem State.drawBit_frame (x0 : Fin 64) (py : Fin 32) (sprite : Byte) (s : State) (b : Nat) :
    s.sameButDrawing (State.drawBit x0 py sprite s b) := by
  simp only [State.drawBit]
  split
  · exact State.xorPixel_frame _ _ _
  · exact ⟨s.v, s.display, rfl⟩

theorem State.drawRow_frame (x0 : Fin 64) (y0 : Fin 32) (s : State) (r : Nat) :
    s.sameButDrawing (State.drawRow x0 y0 s r) :=
  foldl_keeps (fun t => s.sameButDrawing t) _
    (fun t b h => State.sameButDrawing_trans h (State.drawBit_frame x0 _ _ t b)) _ s ⟨s.v, s.display, rfl⟩

/-- DRW leaves everything but the registers and the framebuffer alone. -/
theorem State.drawSprite_frame (s : State) (x0 : Fin 64) (y0 : Fin 32) (n : Nat) :
    s.sameButDrawing (s.drawSprite x0 y0 n) :=
  foldl_keeps (fun t => s.sameButDrawing t) _
    (fun t r h => State.sameButDrawing_trans h (State.drawRow_frame x0 y0 t r)) _ _ ⟨_, s.display, rfl⟩

end Sys2Proof.Machine
end

