-- ==== Sys2Proof/Laws/PerInstr.lean ====
section
/-! SUPPORT. One law per instruction as syntax: the word the encoder gives an instruction is selected by the row of
the opcode map (spec 30_encoding.md R75) that bears the instruction's mnemonic. -/

namespace Sys2Proof.Laws

/-! ### A format under the mask of its rows -/

theorem formatA_under_mask (op : Nibble) (nnn : Addr12) :
    formatA op nnn &&& 0xF000#16 = formatA op 0#12 := by
  apply BitVec.eq_of_getLsbD_eq
  intro k hk
  rw [BitVec.getLsbD_and, getLsbD_formatA, getLsbD_formatA]
  interval_cases k <;> simp

theorem formatI_under_mask (op x : Nibble) (kk : Byte) :
    formatI op x kk &&& 0xF000#16 = formatA op 0#12 := by
  apply BitVec.eq_of_getLsbD_eq
  intro k hk
  rw [BitVec.getLsbD_and, getLsbD_formatI, getLsbD_formatA]
  interval_cases k <;> simp

theorem formatX_under_mask (op x : Nibble) (kk : Byte) :
    formatI op x kk &&& 0xF0FF#16 = formatI op 0#4 kk := by
  apply BitVec.eq_of_getLsbD_eq
  intro k hk
  rw [BitVec.getLsbD_and, getLsbD_formatI, getLsbD_formatI]
  interval_cases k <;> simp

theorem formatR_under_mask (op x y n : Nibble) :
    formatR op x y n &&& 0xF00F#16 = formatR op 0#4 0#4 n := by
  apply BitVec.eq_of_getLsbD_eq
  intro k hk
  rw [BitVec.getLsbD_and, getLsbD_formatR, getLsbD_formatR]
  interval_cases k <;> simp

theorem formatD_under_mask (op x y n : Nibble) :
    formatR op x y n &&& 0xF000#16 = formatA op 0#12 := by
  apply BitVec.eq_of_getLsbD_eq
  intro k hk
  rw [BitVec.getLsbD_and, getLsbD_formatR, getLsbD_formatA]
  interval_cases k <;> simp

/-! ### The family -/

/-- The row of the map that bears the instruction's mnemonic selects the instruction's word. -/
def EncodesItsRow.Statement (i : Instr) : Prop :=
  ∃ r ∈ opcodeMap, r.mnemonic = i.mnemonic ∧ encode i &&& r.mask = r.pattern

theorem EncodesItsRow.cls : EncodesItsRow.Statement (.cls) :=
  ⟨⟨"CLS", 0xFFFF#16, 0x00E0#16⟩, by decide, rfl, by decide⟩

theorem EncodesItsRow.ret : EncodesItsRow.Statement (.ret) :=
  ⟨⟨"RET", 0xFFFF#16, 0x00EE#16⟩, by decide, rfl, by decide⟩

theorem EncodesItsRow.jp (nnn : Addr12) : EncodesItsRow.Statement (.jp nnn) :=
  ⟨⟨"JP", 0xF000#16, 0x1000#16⟩, by decide, rfl, (formatA_under_mask _ _).trans (by decide)⟩

theorem EncodesItsRow.call (nnn : Addr12) : EncodesItsRow.Statement (.call nnn) :=
  ⟨⟨"CALL", 0xF000#16, 0x2000#16⟩, by decide, rfl, (formatA_under_mask _ _).trans (by decide)⟩

theorem EncodesItsRow.seImm (x : Nibble) (kk : Byte) : EncodesItsRow.Statement (.seImm x kk) :=
  ⟨⟨"SE_IMM", 0xF000#16, 0x3000#16⟩, by decide, rfl, (formatI_under_mask _ _ _).trans (by decide)⟩

theorem EncodesItsRow.sneImm (x : Nibble) (kk : Byte) : EncodesItsRow.Statement (.sneImm x kk) :=
  ⟨⟨"SNE_IMM", 0xF000#16, 0x4000#16⟩, by decide, rfl, (formatI_under_mask _ _ _).trans (by decide)⟩

theorem EncodesItsRow.seReg (x y : Nibble) : EncodesItsRow.Statement (.seReg x y) :=
  ⟨⟨"SE_REG", 0xF00F#16, 0x5000#16⟩, by decide, rfl, (formatR_under_mask _ _ _ _).trans (by decide)⟩

theorem EncodesItsRow.ldImm (x : Nibble) (kk : Byte) : EncodesItsRow.Statement (.ldImm x kk) :=
  ⟨⟨"LD_IMM", 0xF000#16, 0x6000#16⟩, by decide, rfl, (formatI_under_mask _ _ _).trans (by decide)⟩

theorem EncodesItsRow.addImm (x : Nibble) (kk : Byte) : EncodesItsRow.Statement (.addImm x kk) :=
  ⟨⟨"ADD_IMM", 0xF000#16, 0x7000#16⟩, by decide, rfl, (formatI_under_mask _ _ _).trans (by decide)⟩

theorem EncodesItsRow.ldReg (x y : Nibble) : EncodesItsRow.Statement (.ldReg x y) :=
  ⟨⟨"LD_REG", 0xF00F#16, 0x8000#16⟩, by decide, rfl, (formatR_under_mask _ _ _ _).trans (by decide)⟩

theorem EncodesItsRow.or (x y : Nibble) : EncodesItsRow.Statement (.or x y) :=
  ⟨⟨"OR", 0xF00F#16, 0x8001#16⟩, by decide, rfl, (formatR_under_mask _ _ _ _).trans (by decide)⟩

theorem EncodesItsRow.and (x y : Nibble) : EncodesItsRow.Statement (.and x y) :=
  ⟨⟨"AND", 0xF00F#16, 0x8002#16⟩, by decide, rfl, (formatR_under_mask _ _ _ _).trans (by decide)⟩

theorem EncodesItsRow.xor (x y : Nibble) : EncodesItsRow.Statement (.xor x y) :=
  ⟨⟨"XOR", 0xF00F#16, 0x8003#16⟩, by decide, rfl, (formatR_under_mask _ _ _ _).trans (by decide)⟩

theorem EncodesItsRow.addReg (x y : Nibble) : EncodesItsRow.Statement (.addReg x y) :=
  ⟨⟨"ADD_REG", 0xF00F#16, 0x8004#16⟩, by decide, rfl, (formatR_under_mask _ _ _ _).trans (by decide)⟩

theorem EncodesItsRow.sub (x y : Nibble) : EncodesItsRow.Statement (.sub x y) :=
  ⟨⟨"SUB", 0xF00F#16, 0x8005#16⟩, by decide, rfl, (formatR_under_mask _ _ _ _).trans (by decide)⟩

theorem EncodesItsRow.shr (x y : Nibble) : EncodesItsRow.Statement (.shr x y) :=
  ⟨⟨"SHR", 0xF00F#16, 0x8006#16⟩, by decide, rfl, (formatR_under_mask _ _ _ _).trans (by decide)⟩

theorem EncodesItsRow.subn (x y : Nibble) : EncodesItsRow.Statement (.subn x y) :=
  ⟨⟨"SUBN", 0xF00F#16, 0x8007#16⟩, by decide, rfl, (formatR_under_mask _ _ _ _).trans (by decide)⟩

theorem EncodesItsRow.shl (x y : Nibble) : EncodesItsRow.Statement (.shl x y) :=
  ⟨⟨"SHL", 0xF00F#16, 0x800E#16⟩, by decide, rfl, (formatR_under_mask _ _ _ _).trans (by decide)⟩

theorem EncodesItsRow.sneReg (x y : Nibble) : EncodesItsRow.Statement (.sneReg x y) :=
  ⟨⟨"SNE_REG", 0xF00F#16, 0x9000#16⟩, by decide, rfl, (formatR_under_mask _ _ _ _).trans (by decide)⟩

theorem EncodesItsRow.ldI (nnn : Addr12) : EncodesItsRow.Statement (.ldI nnn) :=
  ⟨⟨"LD_I", 0xF000#16, 0xA000#16⟩, by decide, rfl, (formatA_under_mask _ _).trans (by decide)⟩

theorem EncodesItsRow.jpV0 (nnn : Addr12) : EncodesItsRow.Statement (.jpV0 nnn) :=
  ⟨⟨"JP_V0", 0xF000#16, 0xB000#16⟩, by decide, rfl, (formatA_under_mask _ _).trans (by decide)⟩

theorem EncodesItsRow.rnd (x : Nibble) (kk : Byte) : EncodesItsRow.Statement (.rnd x kk) :=
  ⟨⟨"RND", 0xF000#16, 0xC000#16⟩, by decide, rfl, (formatI_under_mask _ _ _).trans (by decide)⟩

theorem EncodesItsRow.drw (x y n : Nibble) : EncodesItsRow.Statement (.drw x y n) :=
  ⟨⟨"DRW", 0xF000#16, 0xD000#16⟩, by decide, rfl, (formatD_under_mask _ _ _ _).trans (by decide)⟩

theorem EncodesItsRow.skp (x : Nibble) : EncodesItsRow.Statement (.skp x) :=
  ⟨⟨"SKP", 0xF0FF#16, 0xE09E#16⟩, by decide, rfl, (formatX_under_mask _ _ _).trans (by decide)⟩

theorem EncodesItsRow.sknp (x : Nibble) : EncodesItsRow.Statement (.sknp x) :=
  ⟨⟨"SKNP", 0xF0FF#16, 0xE0A1#16⟩, by decide, rfl, (formatX_under_mask _ _ _).trans (by decide)⟩

theorem EncodesItsRow.ldVxDt (x : Nibble) : EncodesItsRow.Statement (.ldVxDt x) :=
  ⟨⟨"LD_VX_DT", 0xF0FF#16, 0xF007#16⟩, by decide, rfl, (formatX_under_mask _ _ _).trans (by decide)⟩

theorem EncodesItsRow.ldVxK (x : Nibble) : EncodesItsRow.Statement (.ldVxK x) :=
  ⟨⟨"LD_VX_K", 0xF0FF#16, 0xF00A#16⟩, by decide, rfl, (formatX_under_mask _ _ _).trans (by decide)⟩

theorem EncodesItsRow.ldDtVx (x : Nibble) : EncodesItsRow.Statement (.ldDtVx x) :=
  ⟨⟨"LD_DT_VX", 0xF0FF#16, 0xF015#16⟩, by decide, rfl, (formatX_under_mask _ _ _).trans (by decide)⟩

theorem EncodesItsRow.ldStVx (x : Nibble) : EncodesItsRow.Statement (.ldStVx x) :=
  ⟨⟨"LD_ST_VX", 0xF0FF#16, 0xF018#16⟩, by decide, rfl, (formatX_under_mask _ _ _).trans (by decide)⟩

theorem EncodesItsRow.addI (x : Nibble) : EncodesItsRow.Statement (.addI x) :=
  ⟨⟨"ADD_I", 0xF0FF#16, 0xF01E#16⟩, by decide, rfl, (formatX_under_mask _ _ _).trans (by decide)⟩

theorem EncodesItsRow.ldF (x : Nibble) : EncodesItsRow.Statement (.ldF x) :=
  ⟨⟨"LD_F", 0xF0FF#16, 0xF029#16⟩, by decide, rfl, (formatX_under_mask _ _ _).trans (by decide)⟩

theorem EncodesItsRow.ldB (x : Nibble) : EncodesItsRow.Statement (.ldB x) :=
  ⟨⟨"LD_B", 0xF0FF#16, 0xF033#16⟩, by decide, rfl, (formatX_under_mask _ _ _).trans (by decide)⟩

theorem EncodesItsRow.ldMemVx (x : Nibble) : EncodesItsRow.Statement (.ldMemVx x) :=
  ⟨⟨"LD_MEM_VX", 0xF0FF#16, 0xF055#16⟩, by decide, rfl, (formatX_under_mask _ _ _).trans (by decide)⟩

theorem EncodesItsRow.ldVxMem (x : Nibble) : EncodesItsRow.Statement (.ldVxMem x) :=
  ⟨⟨"LD_VX_MEM", 0xF0FF#16, 0xF065#16⟩, by decide, rfl, (formatX_under_mask _ _ _).trans (by decide)⟩

end Sys2Proof.Laws
end

