-- ==== Sys2Proof/Laws/Step.lean ====
section
/-! SUPPORT. What one step can be, said once: an instruction, an illegal word, a host transaction, or nothing; and the
small lemmas of the sequencer. -/

namespace Sys2Proof.Machine

@[simp] theorem State.inFrame_iff (s : State) : s.inFrame = true ↔ s.runState = .running ∧ 0 < s.budget := by
  simp [State.inFrame]

/-- The charge follows only a body that left the machine RUNNING. -/
theorem State.chargeFor_running (t : State) (i : Instr) (h : t.runState = .running) :
    t.chargeFor i = t.charge (costOf i) := by
  simp [State.chargeFor, h]

theorem State.chargeFor_not_running (t : State) (i : Instr) (h : t.runState ≠ .running) : t.chargeFor i = t := by
  simp [State.chargeFor, h]

/-- Every cost is at least 1 (00_scope.md R7). -/
theorem costOf_pos (i : Instr) : 1 ≤ costOf i := by
  simp [costOf]

/-- The step inside a frame. -/
theorem step_inFrame (s : State) (h : s.inFrame = true) : step s = instructionStep s := by
  simp only [step, machineStep, h, if_true]

/-- The step between frames. -/
theorem step_not_inFrame (s : State) (h : s.inFrame = false) : step s = hostStep s := by
  simp [step, machineStep, h]

/-- What a step that answers a next state was. -/
theorem step_cases {s s' : State} (h : step s = .next s') :
    (s.inFrame = true ∧ ∃ i t, decodeWord s.fetchWord = .ok i ∧ exec i s = .next t ∧ s' = t.chargeFor i)
    ∨ (s.inFrame = true ∧ (∃ e, decodeWord s.fetchWord = .error e)
        ∧ s' = s.advancePC.fatal .badOpcode s.pc s.fetchWord)
    ∨ (s.inFrame = false ∧ s.inbox = [] ∧ s' = s)
    ∨ (s.inFrame = false ∧ ∃ t rest, s.inbox = t :: rest
        ∧ s' = State.applyTransaction { s with inbox := rest } t) := by
  cases hf : s.inFrame with
  | true =>
    rw [step_inFrame s hf, instructionStep] at h
    cases hd : decodeWord s.fetchWord with
    | ok i =>
      rw [hd] at h
      cases he : exec i s with
      | next t =>
        simp only [he, chargeOutcome, Host.Outcome.next.injEq] at h
        exact .inl ⟨rfl, i, t, rfl, he, h.symm⟩
      | fault r => exact nomatch r
      | refused r => simp [he, chargeOutcome] at h
    | error e =>
      simp only [hd, Host.Outcome.next.injEq] at h
      exact .inr (.inl ⟨rfl, ⟨e, rfl⟩, h.symm⟩)
  | false =>
    rw [step_not_inFrame s hf, hostStep] at h
    cases hi : s.inbox with
    | nil =>
      simp only [hi, Host.Outcome.next.injEq] at h
      exact .inr (.inr (.inl ⟨rfl, rfl, h.symm⟩))
    | cons t rest =>
      simp only [hi, Host.Outcome.next.injEq] at h
      exact .inr (.inr (.inr ⟨rfl, t, rest, rfl, h.symm⟩))

end Sys2Proof.Machine
end

