-- ==== Sys2Proof/Tests/Slice0.lean ====
section
/-! SUPPORT. The model's own tests. Expected values are those of spec 30_encoding.md (encodings, illegal words) and
95_test_vectors.md (the T, S and P rows named beside each test), or hand arithmetic from the rule named. The last
part shows, for each statement with hypotheses, concrete values that meet all of them. -/

namespace Sys2Proof.Tests

set_option Elab.async false

open Sys2Proof Sys2Proof.Machine

/-! ### Helpers -/

/-- The outcome is a next state that passes. -/
def passes (o : Host.Outcome State Fault Refusal) (p : State → Bool) : Bool :=
  match o with
  | .next t => p t
  | .fault _ => false
  | .refused _ => false

/-- The machine's step on the word `w` placed at `PC`: fetch, decode, body and charge. -/
def runs (w : Nat) (s : State) (p : State → Bool) : Bool := passes (step (s.withFetchWord 16 w)) p

/-- The state after LOAD with some registers set. -/
def regs (l : List (Nibble × Byte)) : State := l.foldl (fun s c => s.setV c.1 c.2) State.reset

/-- A state with bytes stored from an address up. -/
def stored (s : State) (a : Nat) (bs : List Byte) : State := { s with mem := Memory.writeBytes s.mem a bs }

/-- A framebuffer byte. -/
def shown (s : State) (k : Nat) : Byte := (s.display[k]?).getD 0

/-- A state with one framebuffer byte set. -/
def lit (s : State) (k : Fin 256) (b : Byte) : State := { s with display := s.display.set k.val b }

/-- A state with `depth` stack entries, entry `k` being `0x0100 + 2 k` (T2). -/
def stacked (depth : Fin 17) : State :=
  { State.reset with sp := depth, stack := Vector.ofFn fun k => BitVec.ofNat 16 (0x0100 + 2 * k.val) }

/-- A state with 1000 microseconds of budget: a frame is open. -/
def granted : State := { State.reset with budget := 1000 }

/-! ### WellFormed: a refused word for each check (R77), and the edges of the accepted ones -/

theorem test_wf_family0 : wordWellFormed 0x00E1 = false ∧ wordWellFormed 0x00C0 = false ∧ wordWellFormed 0x0000 = false := by
  decide
theorem test_wf_family5 : wordWellFormed 0x5121 = false := by decide
theorem test_wf_family8 : wordWellFormed 0x8008 = false ∧ wordWellFormed 0x800F = false := by decide
theorem test_wf_family9 : wordWellFormed 0x912F = false := by decide
theorem test_wf_familyE : wordWellFormed 0xE0A0 = false := by decide
theorem test_wf_familyF : wordWellFormed 0xF075 = false := by decide
theorem test_wf_accepts : wordWellFormed 0x00EE = true ∧ wordWellFormed 0x5FF0 = true ∧ wordWellFormed 0x8FFE = true
    ∧ wordWellFormed 0xFF65 = true ∧ wordWellFormed 0xDFFF = true := by decide
/-- The map has the 34 rows of R75. -/
theorem test_opcodeMap_length : opcodeMap.length = 34 := by decide

/-! ### Decode: a word of every row of R75, written out from its pattern -/

theorem test_decode_cls : decodeWord 0x00E0 = .ok .cls := by decide
theorem test_decode_ret : decodeWord 0x00EE = .ok .ret := by decide
theorem test_decode_jp : decodeWord 0x1234 = .ok (.jp 0x234) := by decide
theorem test_decode_call : decodeWord 0x2ABC = .ok (.call 0xABC) := by decide
theorem test_decode_seImm : decodeWord 0x332A = .ok (.seImm 3 0x2A) := by decide
theorem test_decode_sneImm : decodeWord 0x432A = .ok (.sneImm 3 0x2A) := by decide
theorem test_decode_seReg : decodeWord 0x5120 = .ok (.seReg 1 2) := by decide
theorem test_decode_ldImm : decodeWord 0x6A3C = .ok (.ldImm 0xA 0x3C) := by decide
theorem test_decode_addImm : decodeWord 0x7105 = .ok (.addImm 1 0x05) := by decide
theorem test_decode_ldReg : decodeWord 0x81F0 = .ok (.ldReg 1 0xF) := by decide
theorem test_decode_or : decodeWord 0x8121 = .ok (.or 1 2) := by decide
theorem test_decode_and : decodeWord 0x8122 = .ok (.and 1 2) := by decide
theorem test_decode_xor : decodeWord 0x8123 = .ok (.xor 1 2) := by decide
theorem test_decode_addReg : decodeWord 0x8014 = .ok (.addReg 0 1) := by decide
theorem test_decode_sub : decodeWord 0x8125 = .ok (.sub 1 2) := by decide
theorem test_decode_shr : decodeWord 0x8126 = .ok (.shr 1 2) := by decide
theorem test_decode_subn : decodeWord 0x8127 = .ok (.subn 1 2) := by decide
theorem test_decode_shl : decodeWord 0x812E = .ok (.shl 1 2) := by decide
theorem test_decode_sneReg : decodeWord 0x9120 = .ok (.sneReg 1 2) := by decide
theorem test_decode_ldI : decodeWord 0xA2F0 = .ok (.ldI 0x2F0) := by decide
theorem test_decode_jpV0 : decodeWord 0xBFFF = .ok (.jpV0 0xFFF) := by decide
theorem test_decode_rnd : decodeWord 0xC10F = .ok (.rnd 1 0x0F) := by decide
theorem test_decode_drw : decodeWord 0xD125 = .ok (.drw 1 2 5) := by decide
theorem test_decode_skp : decodeWord 0xE49E = .ok (.skp 4) := by decide
theorem test_decode_sknp : decodeWord 0xE4A1 = .ok (.sknp 4) := by decide
theorem test_decode_ldVxDt : decodeWord 0xF207 = .ok (.ldVxDt 2) := by decide
theorem test_decode_ldVxK : decodeWord 0xF30A = .ok (.ldVxK 3) := by decide
theorem test_decode_ldDtVx : decodeWord 0xF215 = .ok (.ldDtVx 2) := by decide
theorem test_decode_ldStVx : decodeWord 0xF218 = .ok (.ldStVx 2) := by decide
theorem test_decode_addI : decodeWord 0xF21E = .ok (.addI 2) := by decide
theorem test_decode_ldF : decodeWord 0xF329 = .ok (.ldF 3) := by decide
theorem test_decode_ldB : decodeWord 0xF133 = .ok (.ldB 1) := by decide
theorem test_decode_ldMemVx : decodeWord 0xFF55 = .ok (.ldMemVx 0xF) := by decide
theorem test_decode_ldVxMem : decodeWord 0xF265 = .ok (.ldVxMem 2) := by decide

/-- Bytes: the first is the high half of the word (R51), the rest is left, and one byte is no instruction (R70). -/
theorem test_decode_bytes : decode [0x6A, 0x3C, 0x77] = .ok (.ldImm 0xA 0x3C, [0x77])
    ∧ decode [0x6A] = .error .truncated := by decide

/-- The words of 95_test_vectors.md section 2.8 are illegal. -/
theorem test_decode_illegal :
    ([0x0000, 0x0001, 0x00C0, 0x00E1, 0x00EF, 0x00FB, 0x00FE, 0x0123, 0x0FFF, 0x5001, 0x500F, 0x9001, 0x912F,
      0x8008, 0x8009, 0x800A, 0x800B, 0x800C, 0x800D, 0x800F, 0xE000, 0xE09D, 0xE09F, 0xE0A0, 0xE0A2,
      0xF000, 0xF002, 0xF008, 0xF00B, 0xF01F, 0xF030, 0xF075, 0xF085, 0xF0FF] : List Word).all
      (fun w => match decodeWord w with | .ok _ => false | .error _ => true) = true := by decide

/-- The table numbers bit 0 as the least significant bit of the word. -/
theorem test_decodeTableWord : decodeTableWord 16 0x6A3C = some (.ldImm 0xA 0x3C) ∧ decodeTableWord 16 0x8008 = none := by
  decide

/-! ### Control flow (95_test_vectors.md section 2.1) -/

theorem test_ret_full : runs 0x00EE { stacked 16 with pc := 0x300 }
    (fun t => t.pc == 0x011E && t.sp == 15) = true := by decide +kernel                                    -- T2
theorem test_ret_empty : runs 0x00EE { State.reset with pc := 0x300 }
    (fun t => t.pc == 0x302 && t.runState == .stopped && t.diag == ⟨true, 3, 0x300, 0x00EE⟩) = true := by   -- T3
  decide +kernel
theorem test_jp : runs 0x1234 State.reset (fun t => t.pc == 0x234) = true := by decide +kernel             -- T5
theorem test_call_last : runs 0x2300 { stacked 15 with pc := 0x204 }
    (fun t => t.pc == 0x300 && t.sp == 16 && t.stack[15] == 0x206 && t.stack[14] == 0x11C) = true := by     -- T10
  decide +kernel
theorem test_call_overflow : runs 0x2300 { stacked 16 with pc := 0x204 }
    (fun t => t.pc == 0x206 && t.sp == 16 && t.diag == ⟨true, 2, 0x204, 0x2300⟩) = true := by decide +kernel -- T11
theorem test_seImm_taken : runs 0x332A (regs [(3, 0x2A)]) (fun t => t.pc == 0x204) = true := by decide +kernel -- T14
theorem test_seImm_wraps : runs 0x3000 { State.reset with pc := 0xFFFE } (fun t => t.pc == 0x0002) = true := by -- T17
  decide +kernel
theorem test_sneImm : runs 0x432A (regs [(3, 0x2A)]) (fun t => t.pc == 0x202) = true := by decide +kernel  -- T18
theorem test_seReg : runs 0x5120 (regs [(1, 7), (2, 8)]) (fun t => t.pc == 0x202) = true := by decide +kernel -- T21
theorem test_sneReg : runs 0x9120 (regs [(1, 7), (2, 8)]) (fun t => t.pc == 0x204) = true := by decide +kernel -- T24
theorem test_jpV0_exact : runs 0xBFFF (regs [(0, 0xFF)]) (fun t => t.pc == 0x10FE) = true := by decide +kernel -- T29
theorem test_jpV0_always_v0 : runs 0xB300 (regs [(3, 0x55)]) (fun t => t.pc == 0x300) = true := by decide +kernel -- T30

/-! ### Arithmetic (section 2.2) -/

theorem test_ldImm_vf : runs 0x6FFF State.reset (fun t => t.getV vf == 0xFF && t.pc == 0x202) = true := by  -- T41
  decide +kernel
theorem test_addImm : runs 0x7105 (regs [(1, 0xFE)]) (fun t => t.getV 1 == 0x03 && t.getV vf == 0) = true := by -- T43
  decide +kernel
theorem test_ldReg : runs 0x81F0 (regs [(vf, 1)]) (fun t => t.getV 1 == 1 && t.getV vf == 1) = true := by   -- T49
  decide +kernel
theorem test_or : runs 0x81F1 (regs [(1, 0x10), (vf, 1)]) (fun t => t.getV 1 == 0x11 && t.getV vf == 0) = true := by -- T52
  decide +kernel
theorem test_or_vf : runs 0x8F21 (regs [(vf, 0x0F), (2, 0xF0)]) (fun t => t.getV vf == 0) = true := by      -- T51
  decide +kernel
theorem test_and : runs 0x8122 (regs [(1, 0x3C), (2, 0x0F), (vf, 1)])
    (fun t => t.getV 1 == 0x0C && t.getV vf == 0) = true := by decide +kernel                              -- T54
theorem test_xor : runs 0x8123 (regs [(1, 0xFF), (2, 0x0F), (vf, 1)])
    (fun t => t.getV 1 == 0xF0 && t.getV vf == 0) = true := by decide +kernel                              -- T57
theorem test_addReg_carry : runs 0x8014 (regs [(0, 0xFF), (1, 0x02)])
    (fun t => t.getV 0 == 0x01 && t.getV vf == 1) = true := by decide +kernel                              -- T60
theorem test_addReg_vf : runs 0x8F14 (regs [(vf, 0xFF), (1, 0x02)]) (fun t => t.getV vf == 1) = true := by  -- T65
  decide +kernel
theorem test_sub_borrow : runs 0x8125 (regs [(1, 5), (2, 7)]) (fun t => t.getV 1 == 0xFE && t.getV vf == 0) = true := by -- T68
  decide +kernel
theorem test_sub_equal : runs 0x8125 (regs [(1, 7), (2, 7)]) (fun t => t.getV 1 == 0 && t.getV vf == 1) = true := by -- T70
  decide +kernel
theorem test_shr : runs 0x8126 (regs [(1, 0xAA), (2, 0x05)])
    (fun t => t.getV 1 == 0x02 && t.getV 2 == 0x05 && t.getV vf == 1) = true := by decide +kernel           -- T75
theorem test_shr_vf : runs 0x8F26 (regs [(2, 0x02)]) (fun t => t.getV vf == 0) = true := by decide +kernel  -- T80
theorem test_subn : runs 0x8127 (regs [(1, 5), (2, 7)]) (fun t => t.getV 1 == 0x02 && t.getV vf == 1) = true := by -- T82
  decide +kernel
theorem test_subn_vf : runs 0x8F17 (regs [(vf, 3), (1, 9)]) (fun t => t.getV vf == 1) = true := by decide +kernel -- T85
theorem test_shl : runs 0x812E (regs [(2, 0x81)])
    (fun t => t.getV 1 == 0x02 && t.getV 2 == 0x81 && t.getV vf == 1) = true := by decide +kernel           -- T86
theorem test_shl_from_vf : runs 0x81FE (regs [(vf, 1)]) (fun t => t.getV 1 == 2 && t.getV vf == 0) = true := by -- T89
  decide +kernel

/-! ### Memory and index register (section 2.3) -/

theorem test_ldI : runs 0xAFFF { State.reset with i := 0x1234 } (fun t => t.i == 0x0FFF) = true := by decide +kernel -- T201
theorem test_addI_past_12_bits : runs 0xF21E { regs [(2, 1)] with i := 0x0FFF }
    (fun t => t.i == 0x1000 && t.getV vf == 0) = true := by decide +kernel                                 -- T203
theorem test_addI_wraps : runs 0xF21E { regs [(2, 0xFF)] with i := 0xFF01 } (fun t => t.i == 0) = true := by -- T205
  decide +kernel
theorem test_ldF : runs 0xF329 (regs [(3, 0x0F)]) (fun t => t.i == 0x009B) = true := by decide +kernel      -- T209
theorem test_ldF_low_bits : runs 0xF329 (regs [(3, 0x1A)]) (fun t => t.i == 0x0082) = true := by decide +kernel -- T210
theorem test_ldB : runs 0xF033 { regs [(0, 234)] with i := 0x0300 }
    (fun t => t.memRead 0x300 == 2 && t.memRead 0x301 == 3 && t.memRead 0x302 == 4 && t.i == 0x0300) = true := by -- T212
  decide +kernel
theorem test_ldB_wraps : runs 0xF033 { stored (stored (regs [(0, 100)]) 0xFFF [9]) 0 [9] with i := 0x0FFE }
    (fun t => t.memRead 0xFFE == 1 && t.memRead 0xFFF == 0 && t.memRead 0x000 == 0) = true := by decide +kernel -- T216
theorem test_ldMemVx : runs 0xF255 { regs [(0, 0x11), (1, 0x22), (2, 0x33), (3, 0x44)] with i := 0x0400 }
    (fun t => t.memRead 0x400 == 0x11 && t.memRead 0x402 == 0x33 && t.memRead 0x403 == 0 && t.i == 0x0403) = true := by
  decide +kernel                                                                                           -- T218
theorem test_ldMemVx_wraps : runs 0xF155 { regs [(0, 1), (1, 2)] with i := 0xFFFF }
    (fun t => t.memRead 0xFFF == 1 && t.memRead 0x000 == 2 && t.i == 0x0001) = true := by decide +kernel    -- T222
theorem test_ldVxMem : runs 0xF265 { stored State.reset 0x400 [0x0A, 0x0B, 0x0C, 0x0D] with i := 0x0400 }
    (fun t => t.getV 0 == 0x0A && t.getV 2 == 0x0C && t.getV 3 == 0 && t.i == 0x0403) = true := by decide +kernel -- T223
theorem test_ldVxMem_font : runs 0xFF65 { State.reset with i := 0x0050 }
    (fun t => t.getV 0 == 0xF0 && t.getV 5 == 0x20 && t.getV 13 == 0x80 && t.getV 15 == 0xF0 && t.i == 0x0060) = true := by
  decide +kernel                                                                                           -- T226

/-! ### Random (section 2.4): only what every draw gives -/

theorem test_rnd_mask_zero : runs 0xC100 (regs [(1, 9)]) (fun t => t.getV 1 == 0 && t.draws == 1) = true := by -- T242
  have h : Config.draw 0 &&& 0#8 = 0#8 := BitVec.and_zero
  show (Config.draw 0 &&& 0#8 == 0#8 && true) = true
  rw [h]
  decide

/-! ### Display (section 2.5) -/

theorem test_cls : runs 0x00E0 (lit (lit (regs [(vf, 1)]) 0 0xFF) 255 0x01)
    (fun t => shown t 0 == 0 && shown t 255 == 0 && t.getV vf == 1) = true := by decide +kernel             -- T90
theorem test_drw_wraps : runs 0xD125 { regs [(1, 62), (2, 30)] with i := 0x0050 }
    (fun t => shown t 240 == 0xC0 && shown t 247 == 0x03 && shown t 0 == 0x40 && shown t 23 == 0x03
      && t.getV vf == 0) = true := by decide +kernel                                                       -- T91
theorem test_drw_collision : runs 0xD121 { lit (stored State.reset 0x300 [0x3C]) 0 0xF0 with i := 0x0300 }
    (fun t => shown t 0 == 0xCC && t.getV vf == 1) = true := by decide +kernel                             -- T102

/-! ### Keys (section 2.6) -/

theorem test_skp : runs 0xE49E ((regs [(4, 0x15)]).setKey 5 true) (fun t => t.pc == 0x204) = true := by decide +kernel -- T130
theorem test_sknp : runs 0xE4A1 ((regs [(4, 5)]).setKey 5 true) (fun t => t.pc == 0x202) = true := by decide +kernel -- T133
theorem test_ldVxK : runs 0xF30A { State.reset with budget := 40000, timers := ⟨0, 5, 1⟩ }
    (fun t => t.timers == ⟨10001, 2, 0⟩ && t.budget == 0 && t.runState == .awaitingKey && t.keyDest == 3
      && t.pc == 0x202) = true := by decide +kernel                                                        -- T112
theorem test_key_release_completes :
    let t := State.keyEvent { State.reset with runState := .awaitingKey, keyDest := 3 } 0xB .released
    (t.getV 3 == 0x0B && t.runState == .running && t.getKey 0xB == false) = true := by decide +kernel      -- T114
theorem test_key_out_of_range :
    (State.keyEvent { State.reset with runState := .awaitingKey } 16 .released).runState = .awaitingKey := by -- T115
  decide +kernel

/-! ### Timer access, and the Timer Unit (sections 2.7, 2.9) -/

theorem test_ldVxDt : runs 0xFF07 { State.reset with timers := ⟨0, 0xFF, 0⟩ } (fun t => t.getV vf == 0xFF) = true := by -- T142
  decide +kernel
theorem test_ldDtVx : passes (exec (.ldDtVx 2) (regs [(2, 0x3C)])) (fun t => t.timers == ⟨0, 0x3C, 0⟩) = true := by -- T143
  decide +kernel
theorem test_ldStVx : passes (exec (.ldStVx 2) (regs [(2, 5)])) (fun t => t.timers == ⟨0, 0, 5⟩) = true := by -- T145
  decide +kernel
theorem test_timerAdvance :                                                                    -- T160 to T164, T167
    TimerUnit.advance ⟨0, 3, 1⟩ 16667 = ⟨0, 2, 0⟩ ∧ TimerUnit.advance ⟨0, 2, 0⟩ 16666 = ⟨1, 1, 0⟩
    ∧ TimerUnit.advance ⟨1, 1, 0⟩ 1 = ⟨0, 1, 0⟩ ∧ TimerUnit.advance ⟨0, 1, 0⟩ 1 = ⟨16666, 0, 0⟩
    ∧ TimerUnit.advance ⟨16666, 0, 0⟩ 50000 = ⟨0, 0, 0⟩ ∧ TimerUnit.advance ⟨0, 0, 0⟩ 33335 = ⟨16666, 0, 0⟩ := by
  decide
/-- T147, T148: a charge of 10 with `acc = 4` ticks. -/
theorem test_charge : (State.charge { State.reset with budget := 100, timers := ⟨4, 3, 0⟩ } 10).timers = ⟨16661, 2, 0⟩
    ∧ (State.charge { State.reset with budget := 100, timers := ⟨4, 3, 0⟩ } 10).budget = 90 := by decide +kernel

/-! ### Host transactions (section 2.9) -/

theorem test_frame_awaiting : passes (step { State.reset with
      runState := .awaitingKey, speed := 7, timers := ⟨0, 100, 0⟩, inbox := [.frame 16667] })
    (fun t => t.timers == ⟨0, 92, 0⟩ && t.budget == 0 && t.inbox == []) = true := by decide +kernel         -- T153
theorem test_frame_stopped : passes (step { State.reset with
      runState := .stopped, budget := 900, timers := ⟨16567, 5, 0⟩, inbox := [.frame 16667] })
    (fun t => t.timers == ⟨16567, 4, 0⟩ && t.budget == 900) = true := by decide +kernel                    -- T154
theorem test_frame_running : passes (step { State.reset with speed := 7, budget := -50, inbox := [.frame 1000] })
    (fun t => t.budget == 7950 && t.timers == ⟨0, 0, 0⟩) = true := by decide +kernel                       -- T173: the grant 8000
theorem test_load_oversized : passes (step { regs [(3, 7)] with inbox := [.load (List.replicate 3585 0)] })
    (fun t => t.runState == .stopped && t.getV 3 == 7 && t.diag == Diag.none) = true := by decide +kernel  -- T121
theorem test_load_places : passes (step { State.reset with
      runState := .stopped, speed := 5, diag := ⟨true, 1, 0x200, 0⟩, inbox := [.load [0x12, 0x00, 0xAA]] })
    (fun t => t.runState == .running && t.pc == 0x200 && t.memRead 0x200 == 0x12 && t.memRead 0x202 == 0xAA
      && t.memRead 0x050 == 0xF0 && t.memRead 0x09F == 0x80 && t.memRead 0x1FF == 0 && t.memRead 0x0A0 == 0
      && t.speed == 0 && t.diag == Diag.none) = true := by decide +kernel                                  -- T124, T128, S2
/-- R241 with another font: LOAD copies it, and the font outlives the load. -/
theorem test_load_other_font : passes (step { State.reset with
      font := Vector.replicate 80 0xAA, inbox := [.load [0x12]] })
    (fun t => t.memRead 0x04F == 0 && t.memRead 0x050 == 0xAA && t.memRead 0x09F == 0xAA && t.memRead 0x0A0 == 0
      && t.memRead 0x200 == 0x12 && t.font == Vector.replicate 80 0xAA) = true := by decide +kernel
theorem test_speed_saturates : (State.reset.changeSpeed .down).speed = 0
    ∧ (State.changeSpeed { State.reset with speed := 7 } .up).speed = 7 := by decide                       -- T126, T127
/-- T125, T156: the first Step after LOAD with an empty program and a FRAME is BAD_OPCODE, uncharged. -/
theorem test_empty_program_stops : passes (Host.Core.run Sys2Proof.core 2 { State.reset with inbox := [.frame 1000] })
    (fun t => t.runState == .stopped && t.pc == 0x202 && t.diag == ⟨true, 1, 0x200, 0x0000⟩ && t.budget == 1000) = true := by
  decide +kernel
/-- Reset with nothing waiting: the machine is idle (R41). -/
theorem test_reset_idle : passes (step State.reset) (fun t => t.pc == 0x200 && t.runState == .running) = true := by
  decide +kernel

/-! ### Witnesses: concrete values that meet the hypotheses of each statement that has some -/

theorem witness_EncodeInvertsDecode : decodeWord 0x8FF4 = .ok (.addReg 0xF 0xF) := by decide

/-- A frame is open and the bytes at 0xFFF and 0x000, the fetch of `PC = 0x0FFF`, hold `6A3C`. -/
theorem witness_StepRunsDecodedInstruction :
    let s := stored (stored { granted with pc := 0x0FFF } 0xFFF [0x6A]) 0 [0x3C]
    s.runState = .running ∧ 0 < s.budget
    ∧ decodeWord (wordOfBytes (Memory.read s.mem (s.pc.toNat % 4096)) (Memory.read s.mem ((s.pc.toNat + 1) % 4096)))
      = .ok (.ldImm 0xA 0x3C) := by decide +kernel
/-- The smallest budget that opens a frame, and empty memory, which is illegal code (R78). -/
theorem witness_IllegalWordStopsMachine :
    let s := { State.reset with budget := 1 }
    s.runState = .running ∧ 0 < s.budget ∧ decodeWord s.fetchWord = .error (.fixedNibble 0x0000) := by decide +kernel
/-- Every clause: nothing waiting, RUNNING with budget 0; and each of the four transactions waiting, STOPPED with budget
left. -/
theorem witness_HostActsBetweenFrames :
    ¬(State.reset.runState = .running ∧ 0 < State.reset.budget) ∧ State.reset.inbox = []
    ∧ ∀ t ∈ [Transaction.load [0x12], .key 5 .pressed, .frame 1, .speed .up],
        let s := { State.reset with runState := .stopped, budget := 900, inbox := [t, .frame 1] }
        ¬(s.runState = .running ∧ 0 < s.budget) ∧ s.inbox = t :: [.frame 1] := by decide +kernel
theorem witness_StepChargesCost :
    let s := stored { State.reset with budget := 1 } 0x200 [0x12, 0x00]
    s.runState = .running ∧ 0 < s.budget ∧ decodeWord s.fetchWord = .ok (.jp 0x200)
    ∧ passes (exec (.jp 0x200) s) (fun t => t.runState == .running) = true := by decide +kernel
theorem witness_CallPushesReturnAddress : (stacked 0).sp.val < 16 ∧ (stacked 15).sp.val < 16 := by decide
theorem witness_ReturnPopsReturnAddress :
    (stacked 1).sp.val = (0 : Fin 16).val + 1 ∧ (stacked 16).sp.val = (15 : Fin 16).val + 1 := by decide
theorem witness_StackFatalConditions : (stacked 16).sp.val = 16 ∧ (stacked 0).sp.val = 0 := by decide
/-- Every clause: depths 16, 15, 0 and 1 of a RUNNING machine. -/
theorem witness_StackDepthDecidesFatal :
    (stacked 16).runState = .running ∧ (stacked 16).sp.val = 16 ∧ (stacked 15).sp.val < 16
    ∧ (stacked 0).sp.val = 0 ∧ 0 < (stacked 1).sp.val := by decide +kernel
/-- The condition `x ≠ vf` of the arithmetic statements, at its edge. -/
theorem witness_destination_not_vf : (0xE#4 : Nibble) ≠ vf ∧ (0x0#4 : Nibble) ≠ vf := by decide
/-- LD_MEM_VX and LD_VX_MEM with `x = 0` and `x = 15`: a register at the edge of the range, and one above it. -/
theorem witness_register_ranges :
    (0#4).toNat ≤ (0#4).toNat ∧ (15#4).toNat ≤ (15#4).toNat ∧ ¬(1#4).toNat ≤ (0#4).toNat := by decide
/-- Addresses outside the stored bytes exist, also where the addresses wrap; one inside is not outside. -/
theorem witness_outside_stored_bytes :
    let s := { State.reset with i := 0x0FFE }
    (∀ k, k ≤ 2 → 0x001 ≠ memAddress (s.indexed k)) ∧ ¬(∀ k, k ≤ 2 → 0x000 ≠ memAddress (s.indexed k)) := by
  decide +kernel
theorem witness_RandomByteUnderMask : (0x0F#8).getLsbD 4 = false ∧ (0x0F#8).getLsbD 3 = true := by decide
/-- A lit pixel under a set sprite bit, at the corner (63, 31). -/
theorem witness_DrawXorsSpriteIntoPixels :
    let s := { lit (stored State.reset 0x300 [0x80]) 255 0x01 with i := 0x0300 }
    s.pixel 63 31 = true ∧ s.spriteOver 63 31 1 63 31 = true ∧ s.spriteOver 63 31 1 62 31 = false := by decide +kernel
/-- Registers that are not `VF`; and `VF` as the column at a draw that leaves it 0, so that the same DRW follows. -/
theorem witness_DrawingTwiceRestores : (1#4 : Nibble) ≠ vf ∧ (0xE#4 : Nibble) ≠ vf
    ∧ (let s := { stored (regs [(1, 2)]) 0x300 [0x80] with i := 0x300 }
       passes (exec (.drw vf 1 1) s) (fun t => t.getV vf == s.getV vf && t.getV 1 == s.getV 1 && shown t 16 == 0x80) = true) := by
  decide +kernel
/-- The key of a register value up to 15 and of one above, with its latch set. -/
theorem witness_KeySkips :
    (0xF#4).toNat = ((regs [(4, 0x0F)]).getV 4).toNat % 16 ∧ (5#4).toNat = ((regs [(4, 0xF5)]).getV 4).toNat % 16
    ∧ ((regs [(4, 0xF5)]).setKey 5 true).getKey 5 = true := by decide +kernel
theorem witness_TickCountsDown : 0 < (TimerUnit.mk 0 1 255).dt.toNat ∧ ¬ 0 < (TimerUnit.mk 0 0 0).dt.toNat := by decide
theorem witness_TicksDependOnTotalTimeOnly : (TimerUnit.mk 0 3 1).acc = 0 := by decide
/-- Both ends of the accumulator's range. -/
theorem witness_OneTickPerFrameWhenNotRunning :
    let s := { State.reset with runState := .awaitingKey, timers := ⟨0, 3, 1⟩, inbox := [.frame 16667] }
    let u := { State.reset with runState := .stopped, timers := ⟨16666, 0, 255⟩, inbox := [.frame 16667, .speed .up] }
    s.runState ≠ .running ∧ s.speed = 0 ∧ s.accInRange ∧ s.inbox = .frame 16667 :: []
    ∧ u.runState ≠ .running ∧ u.speed = 0 ∧ u.accInRange ∧ u.inbox = .frame 16667 :: [.speed .up] := by decide +kernel
/-- The largest program, and the empty one; the first and the last address outside font and program. -/
theorem witness_LoadResetsEverything : (List.replicate 3584 (0xAA : Byte)).length ≤ 3584 ∧ ([] : List Byte).length ≤ 3584
    ∧ (0x000 < 4096 ∧ ¬(0x050 ≤ 0x000 ∧ 0x000 < 0x0A0) ∧ ¬(0x200 ≤ 0x000 ∧ 0x000 < 0x200 + 3583))
    ∧ (0xFFF < 4096 ∧ ¬(0x050 ≤ 0xFFF ∧ 0xFFF < 0x0A0) ∧ ¬(0x200 ≤ 0xFFF ∧ 0xFFF < 0x200 + 3583)) := by
  decide +kernel
theorem witness_LoadAcceptsExactlyTheSpace :
    (List.replicate 3584 (0xAA : Byte)).length ≤ 4096 - 0x200
    ∧ (List.replicate 3585 (0xAA : Byte)).length = 4096 - 0x200 + 1 := by decide +kernel
theorem witness_OversizedLoadRejected : 3584 < (List.replicate 3585 (0xAA : Byte)).length := by decide +kernel
/-- Values just outside 0 to 15 and at its ends, both run-state clauses, and a latch that is another key's. -/
theorem witness_KeyTransaction : (0#4 : Nibble) ≠ 15#4 ∧
    ¬(0 ≤ (-1 : Int) ∧ (-1 : Int) ≤ 15) ∧ ¬(0 ≤ (16 : Int) ∧ (16 : Int) ≤ 15)
    ∧ (0 : Int) = ((0#4).toNat : Int) ∧ (15 : Int) = ((15#4).toNat : Int)
    ∧ State.reset.runState ≠ .awaitingKey ∧ { State.reset with runState := .awaitingKey }.runState = .awaitingKey := by
  decide +kernel
/-- The default font is a font of reset, and the edges of the font's place. -/
theorem witness_ResetAndPowerOnValues : State.powerOn.font = State.reset.font ∧ fontTable.length = 80
    ∧ (0x050 ≤ 0x09F ∧ 0x09F < 0x0A0) ∧ ¬(0x050 ≤ 0x04F) ∧ ¬(0x0A0 < 0x0A0) := by decide +kernel
/-- A step of a machine with a font of zeros. -/
theorem witness_FontParameterNeverChanges : passes (step { granted with font := Vector.replicate 80 0 })
    (fun t => t.font == Vector.replicate 80 0) = true := by decide +kernel
theorem witness_FrameGrant : State.reset.runState = .running ∧ State.powerOn.runState ≠ .running := by decide +kernel
/-- The ends of the range, where SPEED saturates. -/
theorem witness_SpeedSaturates : State.reset.speed.val = 0 ∧ { State.reset with speed := 7 }.speed.val = 7 := by
  decide +kernel
/-- The first and the last byte of the program area, and the bytes about it. -/
theorem witness_load_ranges :
    (0x200 ≤ 0xFFF ∧ 0xFFF < 0x200 + 3584) ∧ ¬(0x200 ≤ 0x1FF) ∧ (0x050 ≤ 0x09F ∧ 0x09F < 0x0A0) ∧ ¬(0x050 ≤ 0x04F) := by
  decide
/-- Stores at `PC` and at `PC + 1` across the end of memory, each through an address above 0x0FFF. -/
theorem witness_StoreSeenByReadsAndFetch :
    let s := { State.reset with pc := 0x0FFF }
    (0x1FFF#16).toNat % 4096 = s.pc.toNat % 4096 ∧ (0x1000#16).toNat % 4096 = (s.pc.toNat + 1) % 4096 := by
  decide +kernel
theorem witness_CanonicalMemoryIsUnique :
    Memory.wf (Memory.write [] 0x300 7) ∧ Memory.wf (Memory.write (Memory.write [] 0x300 9) 0x300 7)
    ∧ ∀ a, Memory.read (Memory.write [] 0x300 7) a = Memory.read (Memory.write (Memory.write [] 0x300 9) 0x300 7) a := by
  refine ⟨by decide +kernel, by decide +kernel, ?_⟩
  have h : Memory.write (Memory.write [] 0x300 9) 0x300 7 = Memory.write [] 0x300 7 := by decide +kernel
  intro a
  rw [h]
/-- An invariant state that is not reset, with a step: a fatal stop. -/
theorem witness_EveryStepKeepsInvariant :
    granted.Inv ∧ passes (step granted) (fun t => t.runState == .stopped && t.diag.valid) = true := by decide +kernel
theorem witness_EveryFrameEnds : granted.runState = .running ∧ 0 < granted.budget := by decide +kernel
/-- Each disjunct: a LOAD that fits and rewrites the diagnostic, a key press, and a fatal stop that leaves the LOAD
waiting. -/
theorem witness_StoppedUntilLoad :
    let s := { State.reset with runState := .stopped, diag := ⟨true, 1, 0x200, 0⟩, inbox := [.load [0x12, 0x00], .frame 1] }
    let u := { State.reset with runState := .stopped, inbox := [.key 5 .pressed] }
    let v := { granted with inbox := [.load [0x12, 0x00]] }
    s.runState = .stopped
    ∧ passes (step s) (fun t => t.runState == .running && t.inbox == [.frame 1] && t.diag != s.diag) = true
    ∧ u.runState = .stopped ∧ passes (step u) (fun t => t.runState == .stopped && t.getKey 5) = true
    ∧ passes (step v) (fun t => t.runState == .stopped && t.inbox == v.inbox && t.diag != v.diag) = true := by
  decide +kernel
/-- The release that completes a wait, and a frame that only ages the timers. -/
theorem witness_OnlyRunningExecutes :
    let s := { State.reset with runState := .awaitingKey, keyDest := 15, inbox := [.key 9 .released] }
    let u := { State.powerOn with inbox := [.frame 16667] }
    s.runState ≠ .running ∧ passes (step s) (fun t => t.getV vf == 9 && t.runState == .running) = true
    ∧ u.runState ≠ .running ∧ passes (step u) (fun t => t.runState == .init) = true := by decide +kernel
/-- One step for each outcome: JP, LD_VX_K, and an illegal word. -/
theorem witness_StepHasThreeOutcomes :
    granted.runState = .running ∧ 0 < granted.budget
    ∧ passes (step (stored granted 0x200 [0x12, 0x00])) (fun t => t.runState == .running) = true
    ∧ passes (step (stored granted 0x200 [0xF3, 0x0A])) (fun t => t.runState == .awaitingKey) = true
    ∧ passes (step granted) (fun t => t.runState == .stopped) = true := by decide +kernel
theorem witness_RunStateChangedByThreeInstructions :
    granted.runState = .running ∧ passes (exec (.ldVxK 3) granted) (fun t => t.runState == .awaitingKey) = true
    ∧ passes (exec (.call 0x300) (stacked 16)) (fun t => t.runState == .stopped) = true
    ∧ passes (exec .ret (stacked 0)) (fun t => t.runState == .stopped) = true
    ∧ passes (exec .cls granted) (fun t => t.runState == .running) = true := by decide +kernel
theorem witness_InstructionsLeaveHostSide :
    passes (exec (.skp 4) (State.reset.setKey 5 true)) (fun t => t.getKey 5) = true := by decide +kernel
/-- A listed instruction that changes `VF`, and a load whose named destination it is. -/
theorem witness_FlagWrittenOnlyByListed :
    passes (exec (.addReg 0 1) (regs [(0, 0xFF), (1, 1)])) (fun t => t.getV vf != (regs [(0, 0xFF), (1, 1)]).getV vf) = true
    ∧ passes (exec (.ldVxMem 15) { State.reset with i := 0x50 }) (fun t => t.getV vf != 0) = true := by decide +kernel
theorem witness_ProgramCounterAdvances :
    passes (exec (.seImm 0 0) State.reset) (fun t => t.pc == 0x204) = true ∧ ¬(Instr.seImm 0 0).replacesPC
    ∧ passes (exec .cls State.reset) (fun t => t.pc == 0x202) = true ∧ ¬Instr.cls.replacesPC := by
  refine ⟨by decide +kernel, id, by decide +kernel, id⟩
/-- A store, and an address it does not reach. -/
theorem witness_StorageWrittenOnlyByItsInstructions :
    passes (exec (.ldMemVx 0) { regs [(0, 7)] with i := 0x400 }) (fun t => t.memRead 0x400 == 7) = true
    ∧ (∀ k, (Instr.ldMemVx 0).storesAt k → 0x401 ≠ memAddress ((State.indexed { regs [(0, 7)] with i := 0x400 }) k)) := by
  refine ⟨by decide +kernel, ?_⟩
  intro k hk
  have h : k = 0 := Nat.le_zero.1 hk
  subst h
  decide +kernel

end Sys2Proof.Tests
end

/-! FONT is never written (O60): every operation, every instruction and every host transaction keeps the font. The
instructions are said to keep the whole host side (`sameHostSide`: key latches, speed, waiting transactions, FONT). -/

namespace Sys2Proof.Machine

/-! ### The operations keep the host side -/

theorem sameHostSide_trans {s t u : State} (h : sameHostSide s t) (g : sameHostSide t u) : sameHostSide s u := by
  obtain ⟨hk, hs, hi, hf⟩ := h
  obtain ⟨gk, gs, gi, gf⟩ := g
  exact ⟨gk.trans hk, gs.trans hs, gi.trans hi, gf.trans hf⟩

theorem advancePC_sameHostSide (s : State) : sameHostSide s s.advancePC := ⟨rfl, rfl, rfl, rfl⟩

theorem setPC_sameHostSide (s : State) (p : Word) : sameHostSide s (s.setPC p) := ⟨rfl, rfl, rfl, rfl⟩

theorem fatal_sameHostSide (s : State) (cause : FatalCause) (a w : Word) : sameHostSide s (s.fatal cause a w) :=
  ⟨rfl, rfl, rfl, rfl⟩

theorem advanceI_sameHostSide (s : State) (x : Nibble) : sameHostSide s (s.advanceI x) := ⟨rfl, rfl, rfl, rfl⟩

theorem push_sameHostSide {s t : State} {a : Word} (h : s.push a = some t) : sameHostSide s t := by
  by_cases hd : s.sp.val < 16
  · rw [State.push_of_lt s a hd, Option.some.injEq] at h
    subst h
    exact ⟨rfl, rfl, rfl, rfl⟩
  · rw [State.push_full s a (by omega)] at h
    cases h

theorem pop_sameHostSide {s t : State} {a : Word} (h : s.pop = some (a, t)) : sameHostSide s t := by
  by_cases hd : 0 < s.sp.val
  · rw [State.pop_of_pos s hd, Option.some.injEq, Prod.mk.injEq] at h
    obtain ⟨-, rfl⟩ := h
    exact ⟨rfl, rfl, rfl, rfl⟩
  · rw [State.pop_empty s (by omega)] at h
    cases h

theorem State.sameButMemory.sameHostSide {s t : State} (h : s.sameButMemory t) : sameHostSide s t := by
  obtain ⟨m, rfl⟩ := h
  exact ⟨rfl, rfl, rfl, rfl⟩

theorem State.sameButRegs.sameHostSide {s t : State} (h : s.sameButRegs t) : sameHostSide s t := by
  obtain ⟨w, rfl⟩ := h
  exact ⟨rfl, rfl, rfl, rfl⟩

theorem State.sameButDrawing.sameHostSide {s t : State} (h : s.sameButDrawing t) : sameHostSide s t := by
  obtain ⟨w, d, rfl⟩ := h
  exact ⟨rfl, rfl, rfl, rfl⟩

/-! ### The instructions -/

/-- RET, on a stack that holds an entry and on an empty one. -/
theorem execRet_sameHostSide {s t : State} (h : execRet s = .next t) : sameHostSide s t := by
  refine sameHostSide_trans (advancePC_sameHostSide s) ?_
  cases hp : s.advancePC.pop with
  | none =>
    simp only [execRet, hp, Host.Outcome.next.injEq] at h
    subst h
    exact fatal_sameHostSide _ _ _ _
  | some p =>
    simp only [execRet, hp, Host.Outcome.next.injEq] at h
    subst h
    exact sameHostSide_trans (pop_sameHostSide hp) (setPC_sameHostSide _ _)

/-- CALL, below depth 16 and at it. -/
theorem execCall_sameHostSide {nnn : Addr12} {s t : State} (h : execCall nnn s = .next t) : sameHostSide s t := by
  refine sameHostSide_trans (advancePC_sameHostSide s) ?_
  cases hp : s.advancePC.push s.advancePC.pc with
  | none =>
    simp only [execCall, hp, Host.Outcome.next.injEq] at h
    subst h
    exact fatal_sameHostSide _ _ _ _
  | some u =>
    simp only [execCall, hp, Host.Outcome.next.injEq] at h
    subst h
    exact sameHostSide_trans (push_sameHostSide hp) (setPC_sameHostSide _ _)

/-- No instruction writes what the host writes, nor FONT. All but RET, CALL and the three loops are a chain of
updates whose field laws stand in Laws/State.lean. -/
theorem exec_sameHostSide (i : Instr) {s t : State} (h : exec i s = .next t) : sameHostSide s t := by
  cases i
  case ret => exact execRet_sameHostSide h
  case call nnn => exact execCall_sameHostSide h
  case drw x y n =>
    obtain rfl := Host.Outcome.next.inj h
    exact sameHostSide_trans (advancePC_sameHostSide s) (State.drawSprite_frame _ _ _ _).sameHostSide
  case ldMemVx x =>
    obtain rfl := Host.Outcome.next.inj h
    exact sameHostSide_trans (advancePC_sameHostSide s)
      (sameHostSide_trans (State.storeRegisters_frame _ _).sameHostSide (advanceI_sameHostSide _ x))
  case ldVxMem x =>
    obtain rfl := Host.Outcome.next.inj h
    exact sameHostSide_trans (advancePC_sameHostSide s)
      (sameHostSide_trans (State.loadRegisters_frame _ _).sameHostSide (advanceI_sameHostSide _ x))
  all_goals
    obtain rfl := Host.Outcome.next.inj h
    simp [sameHostSide, State.storeDigits]

/-! ### The charge and the host's transactions -/

@[simp] theorem State.chargeFor_font (s : State) (i : Instr) : (s.chargeFor i).font = s.font := by
  by_cases h : s.runState = .running
  · rw [State.chargeFor_running s i h, State.charge_font]
  · rw [State.chargeFor_not_running s i h]

/-- LOAD reads FONT and keeps it, whether the program fits or not. -/
@[simp] theorem State.load_font (s : State) (prog : List Byte) : (s.load prog).font = s.font := by
  by_cases hp : prog.length ≤ Config.progMax
  · rw [State.load_of_le s prog hp]
  · rcases State.load_of_gt s prog hp with h | h <;> rw [h]

@[simp] theorem State.completeKeyWait_font (s : State) (k : Nibble) : (s.completeKeyWait k).font = s.font := by
  simp only [State.completeKeyWait]
  split <;> rfl

@[simp] theorem State.keyEvent_font (s : State) (k : Int) (ev : KeyEvent) : (s.keyEvent k ev).font = s.font := by
  simp only [State.keyEvent]
  split
  · cases ev <;> simp
  · rfl

@[simp] theorem State.openFrame_font (s : State) (elapsed : Nat) : (s.openFrame elapsed).font = s.font := by
  simp only [State.openFrame]
  split
  · rfl
  · exact State.timerAdvance_font s _

@[simp] theorem State.changeSpeed_font (s : State) (change : SpeedChange) :
    (s.changeSpeed change).font = s.font := by
  cases change <;> rfl

@[simp] theorem State.applyTransaction_font (s : State) (tr : Transaction) :
    (s.applyTransaction tr).font = s.font := by
  cases tr with
  | load prog => exact State.load_font s prog
  | key k ev => exact State.keyEvent_font s k ev
  | frame elapsed => exact State.openFrame_font s elapsed
  | speed change => exact State.changeSpeed_font s change

/-! ### The step -/

/-- Settles O60, by cases on what the step was: an instruction and its charge, an illegal word, an idle step, or a
host transaction. -/
theorem fontParameterNeverChanges : Obligations.FontParameterNeverChanges := by
  intro s s' h
  obtain ⟨-, i, t, -, hexec, rfl⟩ | ⟨-, -, rfl⟩ | ⟨-, -, rfl⟩ | ⟨-, tr, rest, -, rfl⟩ := step_cases h
  · obtain ⟨-, -, -, hfont⟩ := exec_sameHostSide i hexec
    rw [State.chargeFor_font, hfont]
  · rw [State.fatal_font, State.advancePC_font]
  · rfl
  · rw [State.applyTransaction_font]

end Sys2Proof.Machine

/-! What an instruction can do, said once: the stack instructions and the loops as record updates of the state before,
which instructions store, and which change the run state, the budget or the diagnostic. -/

namespace Sys2Proof.Machine

/-! ### What the stack instructions can do -/

/-- RET pops the last return address into `PC`, or stops on an empty stack. -/
theorem execRet_cases {s t : State} (h : execRet s = .next t) :
    (∃ _ : 0 < s.sp.val, t = { s with
      pc := s.stack[s.sp.val - 1]'(by have := s.sp.isLt; omega)
      sp := ⟨s.sp.val - 1, by have := s.sp.isLt; omega⟩ })
    ∨ (s.sp.val = 0 ∧ t = s.advancePC.fatal .stackUnderflow s.pc (encode .ret)) := by
  by_cases hd : 0 < s.sp.val
  · rw [execRet, State.pop_of_pos s.advancePC hd] at h
    exact .inl ⟨hd, (Host.Outcome.next.inj h).symm⟩
  · have hempty : s.sp.val = 0 := by omega
    rw [execRet, State.pop_empty s.advancePC hempty] at h
    exact .inr ⟨hempty, (Host.Outcome.next.inj h).symm⟩

/-- CALL pushes the advanced `PC` and jumps, or stops on a full stack. -/
theorem execCall_cases {nnn : Addr12} {s t : State} (h : execCall nnn s = .next t) :
    (∃ hd : s.sp.val < 16, t = { s with
      pc := addressOperand nnn
      stack := s.stack.set s.sp.val (s.pc + 2) hd
      sp := ⟨s.sp.val + 1, by omega⟩ })
    ∨ (s.sp.val = 16 ∧ t = s.advancePC.fatal .stackOverflow s.pc (encode (.call nnn))) := by
  by_cases hd : s.sp.val < 16
  · rw [execCall, State.push_of_lt s.advancePC _ hd] at h
    exact .inl ⟨hd, (Host.Outcome.next.inj h).symm⟩
  · have hfull : s.sp.val = 16 := by omega
    rw [execCall, State.push_full s.advancePC _ hfull] at h
    exact .inr ⟨hfull, (Host.Outcome.next.inj h).symm⟩

/-! ### What the loops leave alone -/

theorem execDrw_frame {x y n : Nibble} {s t : State} (h : execDrw x y n s = .next t) :
    ∃ regs shown, t = { s with pc := s.pc + 2, v := regs, display := shown } := by
  obtain rfl := Host.Outcome.next.inj h
  obtain ⟨_, _, hdraw⟩ := State.drawSprite_frame s.advancePC (startColumn (s.getV x)) (startRow (s.getV y)) n.toNat
  exact ⟨_, _, hdraw⟩

theorem execLdMemVx_frame {x : Nibble} {s t : State} (h : execLdMemVx x s = .next t) :
    ∃ m index, t = { s with pc := s.pc + 2, mem := m, i := index } := by
  obtain rfl := Host.Outcome.next.inj h
  obtain ⟨_, hstore⟩ := State.storeRegisters_frame (List.range (x.toNat + 1)) s.advancePC
  rw [hstore]
  exact ⟨_, _, rfl⟩

theorem execLdVxMem_frame {x : Nibble} {s t : State} (h : execLdVxMem x s = .next t) :
    ∃ regs index, t = { s with pc := s.pc + 2, v := regs, i := index } := by
  obtain rfl := Host.Outcome.next.inj h
  obtain ⟨_, hload⟩ := State.loadRegisters_frame (List.range (x.toNat + 1)) s.advancePC
  rw [hload]
  exact ⟨_, _, rfl⟩

/-! ### What an instruction does to memory -/

/-- Only LD_B and LD_MEM_VX store. -/
theorem exec_mem_cases (i : Instr) {s t : State} (h : exec i s = .next t) :
    t.mem = s.mem
    ∨ (∃ x, i = .ldB x ∧ t.mem = (s.advancePC.storeDigits (s.getV x)).mem)
    ∨ ∃ x, i = .ldMemVx x ∧ t.mem = ((List.range (x.toNat + 1)).foldl State.storeRegister s.advancePC).mem := by
  cases i
  case ldB x =>
    obtain rfl := Host.Outcome.next.inj h
    exact .inr (.inl ⟨x, rfl, rfl⟩)
  case ldMemVx x =>
    obtain rfl := Host.Outcome.next.inj h
    exact .inr (.inr ⟨x, rfl, rfl⟩)
  case ret => obtain ⟨_, rfl⟩ | ⟨-, rfl⟩ := execRet_cases h <;> exact .inl rfl
  case call nnn => obtain ⟨_, rfl⟩ | ⟨-, rfl⟩ := execCall_cases h <;> exact .inl rfl
  case drw x y n =>
    obtain ⟨_, _, rfl⟩ := execDrw_frame h
    exact .inl rfl
  case ldVxMem x =>
    obtain ⟨_, _, rfl⟩ := execLdVxMem_frame h
    exact .inl rfl
  all_goals
    obtain rfl := Host.Outcome.next.inj h
    simp

/-! ### What an instruction does to the run state, the budget, the diagnostic and the accumulator -/

/-- An instruction leaves all four alone, or is LD_VX_K, or ends in a fatal condition. -/
theorem exec_control_cases (i : Instr) {s t : State} (h : exec i s = .next t) :
    (sameRun s t ∧ sameDiag s t ∧ t.timers.acc = s.timers.acc)
    ∨ (∃ x, i = .ldVxK x ∧ t = s.advancePC.awaitKey x)
    ∨ ∃ cause w, t = s.advancePC.fatal cause s.pc w := by
  cases i
  case ret =>
    obtain ⟨_, rfl⟩ | ⟨-, rfl⟩ := execRet_cases h
    · exact .inl ⟨⟨rfl, rfl, rfl⟩, rfl, rfl⟩
    · exact .inr (.inr ⟨_, _, rfl⟩)
  case call nnn =>
    obtain ⟨_, rfl⟩ | ⟨-, rfl⟩ := execCall_cases h
    · exact .inl ⟨⟨rfl, rfl, rfl⟩, rfl, rfl⟩
    · exact .inr (.inr ⟨_, _, rfl⟩)
  case ldVxK x => exact .inr (.inl ⟨x, rfl, (Host.Outcome.next.inj h).symm⟩)
  case drw x y n =>
    obtain ⟨_, _, rfl⟩ := execDrw_frame h
    exact .inl ⟨⟨rfl, rfl, rfl⟩, rfl, rfl⟩
  case ldMemVx x =>
    obtain ⟨_, _, rfl⟩ := execLdMemVx_frame h
    exact .inl ⟨⟨rfl, rfl, rfl⟩, rfl, rfl⟩
  case ldVxMem x =>
    obtain ⟨_, _, rfl⟩ := execLdVxMem_frame h
    exact .inl ⟨⟨rfl, rfl, rfl⟩, rfl, rfl⟩
  all_goals
    obtain rfl := Host.Outcome.next.inj h
    exact .inl (by simp [sameRun, sameDiag, State.storeDigits])

end Sys2Proof.Machine

/-! The two states of 10_state.md R37 (O45, O46), and the invariant of R35 kept by every step (O49). Memory's canonical
form is kept by every store; the accumulator, the budget and the diagnostic change only by the charge, LD_VX_K, a fatal
condition and the host's transactions, each of which keeps the items that speak of them. -/

namespace Sys2Proof.Machine

/-! ### The states of R37 -/

theorem State.reset_zeroed : State.reset.zeroed := by
  refine ⟨fun r => ?_, rfl, fun k => ?_, rfl, fun k => ?_, rfl, rfl, fun k => ?_, rfl, rfl, rfl, rfl, rfl⟩
  · simp only [State.getV, State.reset, Vector.getElem_replicate]
  · simp only [State.reset, Vector.getElem_replicate]
  · simp only [State.reset, Vector.getElem_replicate]
  · simp only [State.getKey, State.reset, Vector.getElem_replicate]

/-- Power-on differs from reset only in what `State.zeroed` does not speak of. -/
theorem State.powerOn_zeroed : State.powerOn.zeroed := State.reset_zeroed

/-- So does the state after a LOAD that fits. -/
theorem State.load_zeroed (s : State) {prog : List Byte} (h : prog.length ≤ Config.progMax) :
    (s.load prog).zeroed := by
  rw [State.load_of_le s prog h]
  exact State.reset_zeroed

theorem State.powerOn_mem : State.powerOn.mem =
    Memory.writeBytes [] Config.fontBase (List.replicate Config.fontBytes 0) := by
  simp only [State.powerOn]

theorem powerOn_memCanonical : State.powerOn.memCanonical := by
  rw [State.memCanonical, State.powerOn_mem]
  exact Memory.wf_writeBytes _ Memory.wf_nil (by simp [Config.fontBase, Config.fontBytes, Config.memSize])

/-- With the default font LOAD of an empty program is the reset, but for the model's own two fields. -/
theorem load_nil_of_defaultFont {s : State} (h : s.font = defaultFont) :
    s.load [] = { State.reset with draws := s.draws, inbox := s.inbox } := by
  rw [State.load_of_le s [] (Nat.zero_le _), h, loadedMemory_default]
  rfl

/-- Memory at reset is the default font and zeros. -/
theorem read_reset_mem (a : Nat) : Memory.read State.reset.mem a =
    if 0x050 ≤ a ∧ a < 0x0A0 then fontTable.getD (a - 0x050) 0 else 0 := rfl

/-- At power-on the place of the font holds zeros too. -/
theorem read_powerOn_mem (a : Nat) : Memory.read State.powerOn.mem a = 0 := by
  rw [State.powerOn_mem, Memory.read_writeBytes, List.length_replicate]
  split
  case isTrue => exact List.getD_replicate _ (by omega)
  case isFalse hfont => exact if_neg hfont

/-- Settles O45, column by column of R37. -/
theorem resetAndPowerOnValues : Obligations.ResetAndPowerOnValues :=
  ⟨State.reset_zeroed, rfl, rfl, fun a _ => read_reset_mem a, fun _ h => load_nil_of_defaultFont h,
    State.powerOn_zeroed, rfl, rfl, fun a _ => read_powerOn_mem a⟩

/-! ### The invariant at reset and at power-on -/

/-- Of a state with the elements of R37 at 0 the invariant asks only the canonical form of memory. -/
theorem State.zeroed.inv {s : State} (hz : s.zeroed) (hm : s.memCanonical) : s.Inv := by
  obtain ⟨-, -, -, -, -, -, -, -, -, hbudget, hacc, -, hdiag⟩ := hz
  exact ⟨hm, by simp [State.accInRange, hacc], fun _ => hbudget, by simp [hdiag], fun _ => hdiag⟩

/-- Settles O46: both states of R37 are zeroed, and their memory is canonical. -/
theorem invariantAtReset : Obligations.InvariantAtReset :=
  ⟨State.reset_zeroed.inv Memory.wf_nil, State.powerOn_zeroed.inv powerOn_memCanonical⟩

/-! ### The invariant through an instruction and its charge -/

theorem storeDigits_memCanonical (s : State) (b : Byte) (h : s.memCanonical) : (s.storeDigits b).memCanonical :=
  State.memWrite_keeps_wf _ _ _ (State.memWrite_keeps_wf _ _ _ (State.memWrite_keeps_wf s _ _ h))

theorem storeRegisters_memCanonical (l : List Nat) (s : State) (h : s.memCanonical) :
    (l.foldl State.storeRegister s).memCanonical :=
  foldl_keeps State.memCanonical _ (fun t _ ht => State.memWrite_keeps_wf t _ _ ht) l s h

/-- Every instruction keeps memory canonical. -/
theorem exec_memCanonical (i : Instr) {s t : State} (h : exec i s = .next t) (hm : s.memCanonical) :
    t.memCanonical := by
  obtain hsame | ⟨x, -, hdigits⟩ | ⟨x, -, hregs⟩ := exec_mem_cases i h
  · rwa [State.memCanonical, hsame]
  · rw [State.memCanonical, hdigits]
    exact storeDigits_memCanonical s.advancePC _ hm
  · rw [State.memCanonical, hregs]
    exact storeRegisters_memCanonical _ s.advancePC hm

/-- Only a stopped machine holds a diagnostic (R35 item 7). -/
theorem State.diagConsistent.clear {s : State} (h : s.diagConsistent) (hr : s.runState ≠ .stopped) :
    s.diag = Diag.none := by
  cases hv : s.diag.valid with
  | true => exact absurd (h.1 hv).1 hr
  | false => exact h.2 hv

/-- A clear diagnostic is consistent in every run state. -/
theorem diagConsistent_of_clear {s : State} (h : s.diag = Diag.none) : s.diagConsistent :=
  ⟨by simp [h, Diag.none], fun _ => h⟩

theorem fatal_inv {s : State} (h : s.Inv) (cause : FatalCause) (a w : Word) : (s.fatal cause a w).Inv := by
  obtain ⟨hmem, hacc, -, -⟩ := h
  have hcode : cause.code ≠ 0 := by cases cause <;> decide
  exact ⟨hmem, hacc, by simp, fun _ => ⟨rfl, hcode⟩, by simp [State.fatal]⟩

/-- LD_VX_K hands a budget that is not negative to the Timer Unit and leaves none. -/
theorem awaitKey_inv {s : State} (h : s.Inv) (hr : s.runState = .running) (hb : 0 ≤ s.budget) (x : Nibble) :
    (s.awaitKey x).Inv := by
  obtain ⟨hmem, ⟨-, hacc⟩, -, hdiag⟩ := h
  have hclear : (s.awaitKey x).diag = Diag.none := by
    rw [State.awaitKey_diag]
    exact hdiag.clear (by simp [hr])
  refine ⟨hmem, ?_, fun _ => s.awaitKey_budget x, diagConsistent_of_clear hclear⟩
  simpa [State.accInRange] using s.timers.advance_acc_range s.budget hb hacc

/-- The charge is made in RUNNING only, so no wait is left with another budget. -/
theorem chargeFor_inv {s : State} (h : s.Inv) (i : Instr) : (s.chargeFor i).Inv := by
  by_cases hr : s.runState = .running
  · rw [State.chargeFor_running s i hr]
    obtain ⟨hmem, ⟨-, hacc⟩, -, hdiag⟩ := h
    have hclear : (s.charge (costOf i)).diag = Diag.none := by
      rw [State.charge_diag]
      exact hdiag.clear (by simp [hr])
    refine ⟨hmem, ?_, by simp [hr], diagConsistent_of_clear hclear⟩
    simpa [State.accInRange] using s.timers.advance_acc_range (costOf i) (Int.natCast_nonneg _) hacc
  · rwa [State.chargeFor_not_running s i hr]

/-- The body of an instruction run inside a frame. -/
theorem exec_inv (i : Instr) {s t : State} (h : exec i s = .next t) (hs : s.Inv) (hr : s.runState = .running)
    (hb : 0 ≤ s.budget) : t.Inv := by
  obtain ⟨⟨hrun, -, -⟩, hdiag, hacc⟩ | ⟨x, -, rfl⟩ | ⟨cause, w, rfl⟩ := exec_control_cases i h
  · obtain ⟨hmem, hrange, -, hcons⟩ := hs
    have hclear : s.diag = Diag.none := hcons.clear (by simp [hr])
    exact ⟨exec_memCanonical i h hmem, by simpa [State.accInRange, hacc] using hrange, by simp [hrun, hr],
      diagConsistent_of_clear (hdiag.trans hclear)⟩
  · exact awaitKey_inv (s := s.advancePC) hs hr hb x
  · exact fatal_inv (s := s.advancePC) hs cause s.pc w

/-! ### The invariant through a host transaction -/

/-- A LOAD that fits leaves a zeroed state with the loaded memory; another at most stops the machine. -/
theorem load_inv {s : State} (h : s.Inv) (prog : List Byte) : (s.load prog).Inv := by
  by_cases hp : prog.length ≤ Config.progMax
  · refine (State.load_zeroed s hp).inv ?_
    rw [State.load_of_le s prog hp]
    exact loadedMemory_wf s.font hp
  · rcases State.load_of_gt s prog hp with hl | hl <;> rw [hl]
    · exact h
    · obtain ⟨hmem, hacc, -, hvalid, hclear⟩ := h
      exact ⟨hmem, hacc, by simp, fun hv => ⟨rfl, (hvalid hv).2⟩, hclear⟩

/-- The end of a key wait returns to RUNNING, with the clear diagnostic of a machine that was not stopped. -/
theorem completeKeyWait_inv {s : State} (h : s.Inv) (k : Nibble) : (s.completeKeyWait k).Inv := by
  rw [State.completeKeyWait]
  split
  case isTrue hr =>
    obtain ⟨hmem, hacc, -, hdiag⟩ := h
    exact ⟨hmem, hacc, by simp, diagConsistent_of_clear (hdiag.clear (by simp [hr]))⟩
  case isFalse => exact h

theorem setKey_inv {s : State} (h : s.Inv) (k : Nibble) (down : Bool) : (s.setKey k down).Inv := h

theorem keyEvent_inv {s : State} (h : s.Inv) (k : Int) (ev : KeyEvent) : (s.keyEvent k ev).Inv := by
  simp only [State.keyEvent]
  split
  case isTrue =>
    cases ev with
    | pressed => exact setKey_inv h _ _
    | released => exact completeKeyWait_inv (setKey_inv h _ _) _
  case isFalse => exact h

theorem grant_nonneg (s : State) (elapsed : Nat) : 0 ≤ s.grant elapsed := by
  rw [State.grant]
  positivity

/-- A frame adds to the budget of a RUNNING machine only, and ages the timers of another. -/
theorem openFrame_inv {s : State} (h : s.Inv) (elapsed : Nat) : (s.openFrame elapsed).Inv := by
  obtain ⟨hmem, ⟨hlow, hhigh⟩, hwait, hdiag⟩ := h
  rw [State.openFrame]
  split
  case isTrue hr => exact ⟨hmem, ⟨hlow, hhigh⟩, by simp [hr], hdiag⟩
  case isFalse =>
    refine ⟨hmem, ?_, hwait, hdiag⟩
    simpa [State.accInRange] using s.timers.advance_acc_range _ (grant_nonneg s elapsed) hhigh

theorem changeSpeed_inv {s : State} (h : s.Inv) (change : SpeedChange) : (s.changeSpeed change).Inv := by
  cases change <;> exact h

theorem applyTransaction_inv {s : State} (h : s.Inv) (tr : Transaction) : (s.applyTransaction tr).Inv := by
  cases tr with
  | load prog => exact load_inv h prog
  | key k ev => exact keyEvent_inv h k ev
  | frame elapsed => exact openFrame_inv h elapsed
  | speed change => exact changeSpeed_inv h change

/-- Settles O49, by cases on what the step was: an instruction and its charge, an illegal word, an idle step, or a
host transaction. -/
theorem everyStepKeepsInvariant : Obligations.EveryStepKeepsInvariant := by
  intro s s' hs h
  obtain ⟨hf, i, t, -, hexec, rfl⟩ | ⟨-, -, rfl⟩ | ⟨-, -, rfl⟩ | ⟨-, tr, rest, -, rfl⟩ := step_cases h
  · obtain ⟨hr, hb⟩ := s.inFrame_iff.1 hf
    exact chargeFor_inv (exec_inv i hexec hs hr hb.le) i
  · exact fatal_inv (s := s.advancePC) hs _ _ _
  · exact hs
  · exact applyTransaction_inv (s := { s with inbox := rest }) hs tr

end Sys2Proof.Machine

/-! What each instruction may write (10_state.md R22, R23, R25, R27, R29, R40; 20_memory.md R55): `VF`, `PC`, the stack,
the framebuffer and memory, each by one lemma on the instructions that leave it alone (O56 to O59). -/

namespace Sys2Proof.Machine

/-- Settles O56, by the frame of the host side of every instruction. -/
theorem instructionsLeaveHostSide : Obligations.InstructionsLeaveHostSide :=
  fun i _ _ h => exec_sameHostSide i h

/-! ### `VF` -/

/-- The loop of LD_VX_MEM writes only the registers it counts through. -/
theorem loadRegisters_getV_other (l : List Nat) (s : State) {r : Nibble} (h : ∀ k ∈ l, r ≠ registerNumber k) :
    (l.foldl State.loadRegister s).getV r = s.getV r := by
  induction l generalizing s with
  | nil => rfl
  | cons k l ih =>
    rw [List.foldl_cons, ih _ fun j hj => h j (List.mem_cons_of_mem k hj)]
    exact State.getV_setV_other s _ (h k List.mem_cons_self)

/-- Registers 0 to `x` do not reach `VF` unless `x` is 15. -/
theorem vf_ne_registerNumber {x : Nibble} (hx : x ≠ vf) {k : Nat} (hk : k ≤ x.toNat) : vf ≠ registerNumber k := by
  unfold registerNumber
  bv_omega

/-- An instruction that has no flag result and does not name `VF` as its destination keeps it. -/
theorem exec_getV_vf (i : Instr) {s t : State} (h : exec i s = .next t) (hn : ¬ i.mayWriteVF) :
    t.getV vf = s.getV vf := by
  cases i
  case or | and | xor | addReg | sub | subn | shr | shl | drw => exact absurd trivial hn
  case ldImm | addImm | ldReg | rnd | ldVxDt =>
    obtain rfl := Host.Outcome.next.inj h
    exact State.getV_setV_other _ _ (Ne.symm hn)
  case ldVxMem x =>
    obtain rfl := Host.Outcome.next.inj h
    have hloop : ∀ k ∈ List.range (x.toNat + 1), vf ≠ registerNumber k := fun k hk =>
      vf_ne_registerNumber hn (Nat.lt_succ_iff.1 (List.mem_range.1 hk))
    exact loadRegisters_getV_other _ s.advancePC hloop
  case ret => obtain ⟨_, rfl⟩ | ⟨-, rfl⟩ := execRet_cases h <;> rfl
  case call nnn => obtain ⟨_, rfl⟩ | ⟨-, rfl⟩ := execCall_cases h <;> rfl
  case ldMemVx x =>
    obtain ⟨_, _, rfl⟩ := execLdMemVx_frame h
    rfl
  all_goals
    obtain rfl := Host.Outcome.next.inj h
    simp [State.storeDigits]

/-- Settles O57: every instruction not listed keeps `VF`. -/
theorem flagWrittenOnlyByListed : Obligations.FlagWrittenOnlyByListed := by
  intro i s t h hne
  by_contra hn
  exact hne (exec_getV_vf i h hn)

/-! ### `PC` -/

theorem skipIf_advancePC_pc (s : State) (c : Bool) :
    (s.advancePC.skipIf c).pc = s.pc + 2 ∨ (s.advancePC.skipIf c).pc = s.pc + 4 := by
  cases c with
  | false => exact .inl rfl
  | true => exact .inr (BitVec.add_assoc s.pc 2 2)

/-- Settles O58, by cases on the instruction: the skips, the loops, and the instructions that only advance. -/
theorem programCounterAdvances : Obligations.ProgramCounterAdvances := by
  intro i s t h hn
  cases i
  case jp | call | jpV0 | ret => exact absurd trivial hn
  case seImm | sneImm | seReg | sneReg | skp | sknp =>
    obtain rfl := Host.Outcome.next.inj h
    exact (skipIf_advancePC_pc s _).imp_right fun hpc => ⟨trivial, hpc⟩
  case drw x y n =>
    obtain ⟨_, _, rfl⟩ := execDrw_frame h
    exact .inl rfl
  case ldMemVx x =>
    obtain ⟨_, _, rfl⟩ := execLdMemVx_frame h
    exact .inl rfl
  case ldVxMem x =>
    obtain ⟨_, _, rfl⟩ := execLdVxMem_frame h
    exact .inl rfl
  all_goals
    obtain rfl := Host.Outcome.next.inj h
    exact .inl (by simp [State.storeDigits])

/-! ### The stack and the framebuffer -/

theorem exec_sameStack (i : Instr) {s t : State} (h : exec i s = .next t) (hn : ¬ i.usesStack) : sameStack s t := by
  cases i
  case call | ret => exact absurd trivial hn
  case drw x y n =>
    obtain ⟨_, _, rfl⟩ := execDrw_frame h
    exact ⟨rfl, rfl⟩
  case ldMemVx x =>
    obtain ⟨_, _, rfl⟩ := execLdMemVx_frame h
    exact ⟨rfl, rfl⟩
  case ldVxMem x =>
    obtain ⟨_, _, rfl⟩ := execLdVxMem_frame h
    exact ⟨rfl, rfl⟩
  all_goals
    obtain rfl := Host.Outcome.next.inj h
    simp [sameStack, State.storeDigits]

theorem exec_sameDisplay (i : Instr) {s t : State} (h : exec i s = .next t) (hn : ¬ i.drawsDisplay) :
    sameDisplay s t := by
  cases i
  case cls | drw => exact absurd trivial hn
  case ret => obtain ⟨_, rfl⟩ | ⟨-, rfl⟩ := execRet_cases h <;> rfl
  case call nnn => obtain ⟨_, rfl⟩ | ⟨-, rfl⟩ := execCall_cases h <;> rfl
  case ldMemVx x =>
    obtain ⟨_, _, rfl⟩ := execLdMemVx_frame h
    rfl
  case ldVxMem x =>
    obtain ⟨_, _, rfl⟩ := execLdVxMem_frame h
    rfl
  all_goals
    obtain rfl := Host.Outcome.next.inj h
    simp [sameDisplay, State.storeDigits]

/-! ### Memory -/

/-- LD_B changes no byte but those at `I`, `I + 1` and `I + 2`. -/
theorem read_storeDigits_other (s : State) (b : Byte) {a : Nat} (h : ∀ k ≤ 2, a ≠ memAddress (s.indexed k)) :
    Memory.read (s.storeDigits b).mem a = Memory.read s.mem a :=
  calc Memory.read (s.storeDigits b).mem a
    _ = Memory.read ((s.memWrite (s.indexed 0) (hundreds b)).memWrite (s.indexed 1) (tens b)).mem a :=
        Memory.read_write_other _ _ (h 2 (by decide))
    _ = Memory.read (s.memWrite (s.indexed 0) (hundreds b)).mem a := Memory.read_write_other _ _ (h 1 (by decide))
    _ = Memory.read s.mem a := Memory.read_write_other _ _ (h 0 (by decide))

/-- The loop of LD_MEM_VX changes no byte but those it counts through. -/
theorem read_storeRegisters_other (l : List Nat) (s : State) {a : Nat}
    (h : ∀ k ∈ l, a ≠ memAddress (s.indexed k)) :
    Memory.read (l.foldl State.storeRegister s).mem a = Memory.read s.mem a := by
  induction l generalizing s with
  | nil => rfl
  | cons k l ih =>
    rw [List.foldl_cons, ih (s.storeRegister k) fun j hj => h j (List.mem_cons_of_mem k hj)]
    exact Memory.read_write_other _ _ (h k List.mem_cons_self)

/-- A byte at an address that the instruction does not store to reads as before. -/
theorem exec_read_other (i : Instr) {s t : State} (h : exec i s = .next t) {a : Nat}
    (ha : ∀ k, i.storesAt k → a ≠ memAddress (s.indexed k)) : Memory.read t.mem a = Memory.read s.mem a := by
  obtain hsame | ⟨x, rfl, hdigits⟩ | ⟨x, rfl, hregs⟩ := exec_mem_cases i h
  · rw [hsame]
  · rw [hdigits]
    exact read_storeDigits_other s.advancePC _ ha
  · rw [hregs]
    exact read_storeRegisters_other _ s.advancePC fun k hk => ha k (Nat.lt_succ_iff.1 (List.mem_range.1 hk))

/-- Settles O59, one lemma per storage. -/
theorem storageWrittenOnlyByItsInstructions : Obligations.StorageWrittenOnlyByItsInstructions :=
  fun i _ _ h => ⟨exec_sameStack i h, exec_sameDisplay i h, fun _ ha => exec_read_other i h ha⟩

end Sys2Proof.Machine

/-! The host's turn between frames (10_state.md R41; O8). -/

namespace Sys2Proof.Machine

/-- Outside a frame the oldest host transaction is applied to the state without it. -/
theorem step_of_inbox_cons {s : State} (hf : s.inFrame = false) {tr : Transaction} {rest : List Transaction}
    (hi : s.inbox = tr :: rest) : step s = .next (State.applyTransaction { s with inbox := rest } tr) := by
  simp only [step_not_inFrame s hf, hostStep, hi]

theorem step_of_inbox_nil {s : State} (hf : s.inFrame = false) (hi : s.inbox = []) : step s = .next s := by
  simp only [step_not_inFrame s hf, hostStep, hi]

/-- Settles O8: each transaction is `State.applyTransaction` of it. -/
theorem hostActsBetweenFrames : Obligations.HostActsBetweenFrames := by
  intro s hs
  have hf : s.inFrame = false := Bool.eq_false_iff.2 fun h => hs (s.inFrame_iff.1 h)
  exact ⟨step_of_inbox_nil hf, fun rest => ⟨fun _ => step_of_inbox_cons hf, fun _ _ => step_of_inbox_cons hf,
    fun _ => step_of_inbox_cons hf, fun _ => step_of_inbox_cons hf⟩⟩

end Sys2Proof.Machine

/-! Stores as later reads and the next fetch see them (20_memory.md R50, R60, R63; O47). -/

namespace Sys2Proof.Machine

/-- The address after `a`: adding 1 modulo 65536 before the mask is adding 1 modulo 4096. -/
theorem memAddress_add_one (a : Word) : memAddress (a + 1) = (a.toNat + 1) % 4096 := by
  have h : (a + 1).toNat = (a.toNat + 1) % 65536 := BitVec.toNat_add a 1
  rw [memAddress_eq, h, Nat.mod_mod_of_dvd _ (by decide)]

theorem State.memRead_memWrite_of_memAddress_eq (s : State) {a c : Word} (b : Byte)
    (h : memAddress c = memAddress a) : (s.memWrite a b).memRead c = b := by
  rw [State.memRead_memWrite, if_pos h]

@[simp] theorem State.firstByte_fetchWord (s : State) : Word.firstByte s.fetchWord = s.memRead s.pc :=
  firstByte_wordOfBytes _ _

@[simp] theorem State.secondByte_fetchWord (s : State) : Word.secondByte s.fetchWord = s.memRead (s.pc + 1) :=
  secondByte_wordOfBytes _ _

/-- Settles O47: the fetch reads its two bytes from the memory that the store wrote, at the masks of `PC` and
`PC + 1`. -/
theorem storeSeenByReadsAndFetch : Obligations.StoreSeenByReadsAndFetch := by
  intro s a c b
  refine ⟨?read, fun hfirst => ?first, fun hsecond => ?second⟩
  case read => rw [State.memRead_memWrite, memAddress_eq, memAddress_eq]
  case first =>
    rw [State.firstByte_fetchWord, State.memWrite_pc]
    exact s.memRead_memWrite_of_memAddress_eq b (by rw [memAddress_eq, memAddress_eq, hfirst])
  case second =>
    rw [State.secondByte_fetchWord, State.memWrite_pc]
    exact s.memRead_memWrite_of_memAddress_eq b (by rw [memAddress_add_one, memAddress_eq, hsecond])

end Sys2Proof.Machine

/-! The encoder and the decoder are inverse (30_encoding.md R71 to R75; O1, O2, O5). Going back from a word to its
encoding, a format is put together again from the fields that the dispatch has tested. -/

namespace Sys2Proof

/-! ### Encode, then decode -/

/-- The fields of a format are its operands, so each dispatch test is one of two constants. -/
theorem decodeWord_encode (i : Instr) : decodeWord (encode i) = .ok i := by
  cases i with
  | cls | ret => decide
  | jp nnn | call nnn | ldI nnn | jpV0 nnn | seImm x kk | sneImm x kk | ldImm x kk | addImm x kk | rnd x kk
  | drw x y n => simp [encode, decodeWord]
  | seReg x y | sneReg x y => simp [encode, decodeWord, decodeNeedsZero]
  | ldReg x y | or x y | and x y | xor x y | addReg x y | sub x y | shr x y | subn x y | shl x y =>
    simp [encode, decodeWord, decodeFamily8]
  | skp x | sknp x => simp [encode, decodeWord, decodeFamilyE]
  | ldVxDt x | ldVxK x | ldDtVx x | ldStVx x | addI x | ldF x | ldB x | ldMemVx x | ldVxMem x =>
    simp [encode, decodeWord, decodeFamilyF]

theorem decode_encodeBytes (i : Instr) (rest : List Byte) : decode (encodeBytes i ++ rest) = .ok (i, rest) := by
  simp [encodeBytes, decode, decodeWord_encode]

/-- Settles O1, by the formats' fields. -/
theorem decodeInvertsEncode : Obligations.DecodeInvertsEncode :=
  fun i rest => ⟨decodeWord_encode i, decode_encodeBytes i rest⟩

/-! ### Decode, then encode -/

theorem formatA_of_fields {w : Word} {op : Nibble} {nnn : Addr12} (hop : Word.fieldOp w = op)
    (hnnn : Word.fieldNnn w = nnn) : formatA op nnn = w := by
  rw [← hop, ← hnnn, formatA_fields]

theorem formatI_of_fields {w : Word} {op : Nibble} {kk : Byte} (hop : Word.fieldOp w = op)
    (hkk : Word.fieldKk w = kk) : formatI op (Word.fieldX w) kk = w := by
  rw [← hop, ← hkk, formatI_fields]

theorem formatR_of_fields {w : Word} {op n : Nibble} (hop : Word.fieldOp w = op) (hn : Word.fieldN w = n) :
    formatR op (Word.fieldX w) (Word.fieldY w) n = w := by
  rw [← hop, ← hn, formatR_fields]

theorem encode_of_decodeFamily0 {w : Word} {i : Instr} (hop : Word.fieldOp w = 0x0#4)
    (h : decodeFamily0 w = .ok i) : encode i = w := by
  unfold decodeFamily0 at h
  split_ifs at h with hcls hret <;> cases h
  · exact .trans (by decide) (formatA_of_fields hop hcls)
  · exact .trans (by decide) (formatA_of_fields hop hret)

theorem of_decodeNeedsZero {w : Word} {i j : Instr} (h : decodeNeedsZero w j = .ok i) :
    Word.fieldN w = 0x0#4 ∧ i = j := by
  unfold decodeNeedsZero at h
  split_ifs at h with hn
  cases h
  exact ⟨hn, rfl⟩

theorem encode_of_decodeFamily8 {w : Word} {i : Instr} (hop : Word.fieldOp w = 0x8#4)
    (h : decodeFamily8 w = .ok i) : encode i = w := by
  unfold decodeFamily8 at h
  split_ifs at h <;> cases h <;> exact formatR_of_fields hop ‹_›

theorem encode_of_decodeFamilyE {w : Word} {i : Instr} (hop : Word.fieldOp w = 0xE#4)
    (h : decodeFamilyE w = .ok i) : encode i = w := by
  unfold decodeFamilyE at h
  split_ifs at h <;> cases h <;> exact formatI_of_fields hop ‹_›

theorem encode_of_decodeFamilyF {w : Word} {i : Instr} (hop : Word.fieldOp w = 0xF#4)
    (h : decodeFamilyF w = .ok i) : encode i = w := by
  unfold decodeFamilyF at h
  split_ifs at h <;> cases h <;> exact formatI_of_fields hop ‹_›

/-- The sixteen families of the primary dispatch. -/
theorem fieldOp_cases (w : Word) :
    Word.fieldOp w = 0x0#4 ∨ Word.fieldOp w = 0x1#4 ∨ Word.fieldOp w = 0x2#4 ∨ Word.fieldOp w = 0x3#4
    ∨ Word.fieldOp w = 0x4#4 ∨ Word.fieldOp w = 0x5#4 ∨ Word.fieldOp w = 0x6#4 ∨ Word.fieldOp w = 0x7#4
    ∨ Word.fieldOp w = 0x8#4 ∨ Word.fieldOp w = 0x9#4 ∨ Word.fieldOp w = 0xA#4 ∨ Word.fieldOp w = 0xB#4
    ∨ Word.fieldOp w = 0xC#4 ∨ Word.fieldOp w = 0xD#4 ∨ Word.fieldOp w = 0xE#4 ∨ Word.fieldOp w = 0xF#4 := by
  generalize Word.fieldOp w = op
  revert op
  decide

/-- Settles O2: in each family, the tested fields and the operands make up the word. -/
theorem encodeInvertsDecode : Obligations.EncodeInvertsDecode := by
  intro w i h
  obtain hop | hop | hop | hop | hop | hop | hop | hop | hop | hop | hop | hop | hop | hop | hop | hop :=
    fieldOp_cases w <;>
  simp only [decodeWord, hop, BitVec.reduceEq, if_true, if_false, Except.ok.injEq] at h
  · exact encode_of_decodeFamily0 hop h
  · subst h; exact formatA_of_fields hop rfl
  · subst h; exact formatA_of_fields hop rfl
  · subst h; exact formatI_of_fields hop rfl
  · subst h; exact formatI_of_fields hop rfl
  · obtain ⟨hn, rfl⟩ := of_decodeNeedsZero h
    exact formatR_of_fields hop hn
  · subst h; exact formatI_of_fields hop rfl
  · subst h; exact formatI_of_fields hop rfl
  · exact encode_of_decodeFamily8 hop h
  · obtain ⟨hn, rfl⟩ := of_decodeNeedsZero h
    exact formatR_of_fields hop hn
  · subst h; exact formatA_of_fields hop rfl
  · subst h; exact formatA_of_fields hop rfl
  · subst h; exact formatI_of_fields hop rfl
  · subst h; exact formatR_of_fields hop rfl
  · exact encode_of_decodeFamilyE hop h
  · exact encode_of_decodeFamilyF hop h

/-- Settles O5, by running the decoder. -/
theorem specWordsDecode : Obligations.SpecWordsDecode := by
  unfold Obligations.SpecWordsDecode
  decide

end Sys2Proof

/-! The words the decoder refuses (30_encoding.md R77; O3, O7). -/

namespace Sys2Proof

theorem decodeFamily0_error_iff (w : Word) :
    (∃ e, decodeFamily0 w = .error e) ↔ Word.fieldNnn w ≠ 0x0E0#12 ∧ Word.fieldNnn w ≠ 0x0EE#12 := by
  unfold decodeFamily0
  split_ifs <;> simp [*]

theorem decodeNeedsZero_error_iff (w : Word) (i : Instr) :
    (∃ e, decodeNeedsZero w i = .error e) ↔ Word.fieldN w ≠ 0x0#4 := by
  unfold decodeNeedsZero
  split_ifs <;> simp [*]

theorem decodeFamily8_error_iff (w : Word) :
    (∃ e, decodeFamily8 w = .error e) ↔
      Word.fieldN w ∈ [0x8#4, 0x9#4, 0xA#4, 0xB#4, 0xC#4, 0xD#4, 0xF#4] := by
  unfold decodeFamily8
  generalize Word.fieldN w = n
  have h : ∀ n : Nibble, n ≠ 0x0#4 → n ≠ 0x1#4 → n ≠ 0x2#4 → n ≠ 0x3#4 → n ≠ 0x4#4 → n ≠ 0x5#4 → n ≠ 0x6#4
      → n ≠ 0x7#4 → n ≠ 0xE#4 → n ∈ [0x8#4, 0x9#4, 0xA#4, 0xB#4, 0xC#4, 0xD#4, 0xF#4] := by decide
  split_ifs <;> simp [*]

theorem decodeFamilyE_error_iff (w : Word) :
    (∃ e, decodeFamilyE w = .error e) ↔ Word.fieldKk w ∉ [0x9E#8, 0xA1#8] := by
  unfold decodeFamilyE
  split_ifs <;> simp [*]

theorem decodeFamilyF_error_iff (w : Word) :
    (∃ e, decodeFamilyF w = .error e) ↔
      Word.fieldKk w ∉ [0x07#8, 0x0A#8, 0x15#8, 0x18#8, 0x1E#8, 0x29#8, 0x33#8, 0x55#8, 0x65#8] := by
  unfold decodeFamilyF
  split_ifs <;> simp [*]

/-- R77 on the fields of the word. -/
theorem decodeWord_error_iff (w : Word) :
    (∃ e, decodeWord w = .error e) ↔
      (Word.fieldOp w = 0x0#4 ∧ Word.fieldNnn w ≠ 0x0E0#12 ∧ Word.fieldNnn w ≠ 0x0EE#12)
      ∨ ((Word.fieldOp w = 0x5#4 ∨ Word.fieldOp w = 0x9#4) ∧ Word.fieldN w ≠ 0x0#4)
      ∨ (Word.fieldOp w = 0x8#4 ∧ Word.fieldN w ∈ [0x8#4, 0x9#4, 0xA#4, 0xB#4, 0xC#4, 0xD#4, 0xF#4])
      ∨ (Word.fieldOp w = 0xE#4 ∧ Word.fieldKk w ∉ [0x9E#8, 0xA1#8])
      ∨ (Word.fieldOp w = 0xF#4
          ∧ Word.fieldKk w ∉ [0x07#8, 0x0A#8, 0x15#8, 0x18#8, 0x1E#8, 0x29#8, 0x33#8, 0x55#8, 0x65#8]) := by
  obtain hop | hop | hop | hop | hop | hop | hop | hop | hop | hop | hop | hop | hop | hop | hop | hop :=
    fieldOp_cases w <;>
  simp [decodeWord, hop, decodeFamily0_error_iff, decodeNeedsZero_error_iff, decodeFamily8_error_iff,
    decodeFamilyE_error_iff, decodeFamilyF_error_iff]

/-- Settles O3: the fields are quotients and remainders of the word's value. -/
theorem illegalWordsAreExactlyTheListed : Obligations.IllegalWordsAreExactlyTheListed := by
  intro w
  simp only [decodeWord_error_iff, List.mem_cons, List.not_mem_nil, or_false, ← BitVec.toNat_inj, ne_eq,
    fieldOp_toNat, fieldNnn_toNat, fieldN_toNat, fieldKk_toNat, BitVec.toNat_ofNat, Nat.reducePow, Nat.reduceMod]

end Sys2Proof

namespace Sys2Proof.Machine

/-- Settles O7: the step of an illegal word is `State.fatal` after the advance of `PC`. -/
theorem illegalWordStopsMachine : Obligations.IllegalWordStopsMachine := by
  intro s e hr hb hd
  rw [step_inFrame s (s.inFrame_iff.2 ⟨hr, hb⟩), instructionStep, hd]
  rfl

end Sys2Proof.Machine

/-! The printed opcode map (30_encoding.md R74, R75; O4). Its rows exclude each other; the row of an instruction selects
the instruction's word; and a row decides every field that its words are dispatched on, so that all of them decode as
its pattern does. -/

namespace Sys2Proof

theorem OpcodeRow.selects_iff (r : OpcodeRow) (w : Word) : r.selects w = true ↔ w &&& r.mask = r.pattern := by
  simp [OpcodeRow.selects]

/-! ### At most one row -/

/-- Two rows differ in a bit that both masks cover. -/
theorem opcodeMap_exclusive :
    opcodeMap.Pairwise fun r q => r.pattern &&& q.mask ≠ q.pattern &&& r.mask := by
  decide

theorem OpcodeRow.not_selects_both {r q : OpcodeRow} {w : Word}
    (h : r.pattern &&& q.mask ≠ q.pattern &&& r.mask) (hr : r.selects w = true) : ¬ q.selects w = true := by
  intro hq
  rw [OpcodeRow.selects_iff] at hr hq
  apply h
  rw [← hr, ← hq, BitVec.and_assoc, BitVec.and_assoc, BitVec.and_comm r.mask]

/-- The rows selecting a word are one row, where there is one. -/
theorem filter_selects_eq_singleton {w : Word} {r : OpcodeRow} (hr : r ∈ opcodeMap) (hs : r.selects w = true) :
    (opcodeMap.filter fun q => q.selects w) = [r] := by
  have hmem : r ∈ opcodeMap.filter fun q => q.selects w := List.mem_filter.2 ⟨hr, hs⟩
  have hone : (opcodeMap.filter fun q => q.selects w).Pairwise fun _ _ => False :=
    (opcodeMap_exclusive.filter _).imp_of_mem fun hq hq' hne =>
      OpcodeRow.not_selects_both hne (List.mem_filter.1 hq).2 (List.mem_filter.1 hq').2
  generalize (opcodeMap.filter fun q => q.selects w) = rows at hmem hone
  match rows, hmem, hone with
  | [q], hmem, _ => rw [List.mem_singleton.1 hmem]
  | _ :: _ :: _, _, hone => exact (List.rel_of_pairwise_cons hone List.mem_cons_self).elim

/-! ### The row of an instruction -/

open Laws in
theorem encodesItsRow : ∀ i : Instr, EncodesItsRow.Statement i
  | .cls => EncodesItsRow.cls
  | .ret => EncodesItsRow.ret
  | .jp _ => EncodesItsRow.jp _
  | .call _ => EncodesItsRow.call _
  | .seImm _ _ => EncodesItsRow.seImm _ _
  | .sneImm _ _ => EncodesItsRow.sneImm _ _
  | .seReg _ _ => EncodesItsRow.seReg _ _
  | .ldImm _ _ => EncodesItsRow.ldImm _ _
  | .addImm _ _ => EncodesItsRow.addImm _ _
  | .ldReg _ _ => EncodesItsRow.ldReg _ _
  | .or _ _ => EncodesItsRow.or _ _
  | .and _ _ => EncodesItsRow.and _ _
  | .xor _ _ => EncodesItsRow.xor _ _
  | .addReg _ _ => EncodesItsRow.addReg _ _
  | .sub _ _ => EncodesItsRow.sub _ _
  | .shr _ _ => EncodesItsRow.shr _ _
  | .subn _ _ => EncodesItsRow.subn _ _
  | .shl _ _ => EncodesItsRow.shl _ _
  | .sneReg _ _ => EncodesItsRow.sneReg _ _
  | .ldI _ => EncodesItsRow.ldI _
  | .jpV0 _ => EncodesItsRow.jpV0 _
  | .rnd _ _ => EncodesItsRow.rnd _ _
  | .drw _ _ _ => EncodesItsRow.drw _ _ _
  | .skp _ => EncodesItsRow.skp _
  | .sknp _ => EncodesItsRow.sknp _
  | .ldVxDt _ => EncodesItsRow.ldVxDt _
  | .ldVxK _ => EncodesItsRow.ldVxK _
  | .ldDtVx _ => EncodesItsRow.ldDtVx _
  | .ldStVx _ => EncodesItsRow.ldStVx _
  | .addI _ => EncodesItsRow.addI _
  | .ldF _ => EncodesItsRow.ldF _
  | .ldB _ => EncodesItsRow.ldB _
  | .ldMemVx _ => EncodesItsRow.ldMemVx _
  | .ldVxMem _ => EncodesItsRow.ldVxMem _

/-! ### A selected word decodes -/

/-- A field that the mask covers is the pattern's. -/
theorem OpcodeRow.field_eq_of_selects {r : OpcodeRow} {w : Word} (h : r.selects w = true) {p l : Nat}
    (hm : r.mask.extractLsb' p l = BitVec.allOnes l) : w.extractLsb' p l = r.pattern.extractLsb' p l := by
  rw [← (r.selects_iff w).1 h, BitVec.extractLsb'_and, hm, BitVec.and_allOnes]

/-- The mask covers `op` and the field that the pattern's family dispatches on (R74). -/
def OpcodeRow.CoversDispatch (r : OpcodeRow) : Prop :=
  Word.fieldOp r.mask = BitVec.allOnes 4
  ∧ (Word.fieldOp r.pattern = 0x0#4 → Word.fieldNnn r.mask = BitVec.allOnes 12)
  ∧ (Word.fieldOp r.pattern ∈ [0x5#4, 0x8#4, 0x9#4] → Word.fieldN r.mask = BitVec.allOnes 4)
  ∧ (Word.fieldOp r.pattern ∈ [0xE#4, 0xF#4] → Word.fieldKk r.mask = BitVec.allOnes 8)

theorem opcodeMap_coversDispatch : ∀ r ∈ opcodeMap, r.CoversDispatch := by
  unfold OpcodeRow.CoversDispatch
  decide

theorem opcodeMap_pattern_decodes : ∀ r ∈ opcodeMap, (decodeWord r.pattern).isOk = true := by
  decide

/-- The refusals of R77 depend only on fields that the row decides. -/
theorem OpcodeRow.CoversDispatch.pattern_error {r : OpcodeRow} (hc : r.CoversDispatch) {w : Word}
    (hs : r.selects w = true) (he : ∃ e, decodeWord w = .error e) : ∃ e, decodeWord r.pattern = .error e := by
  obtain ⟨hop, h0, hN, hK⟩ := hc
  have hop : Word.fieldOp w = Word.fieldOp r.pattern := OpcodeRow.field_eq_of_selects hs hop
  have h0 (h) : Word.fieldNnn w = Word.fieldNnn r.pattern := OpcodeRow.field_eq_of_selects hs (h0 h)
  have hN (h) : Word.fieldN w = Word.fieldN r.pattern := OpcodeRow.field_eq_of_selects hs (hN h)
  have hK (h) : Word.fieldKk w = Word.fieldKk r.pattern := OpcodeRow.field_eq_of_selects hs (hK h)
  rw [decodeWord_error_iff] at he ⊢
  rw [hop] at he
  obtain ⟨hp, h⟩ | ⟨hp, h⟩ | ⟨hp, h⟩ | ⟨hp, h⟩ | ⟨hp, h⟩ := he
  · rw [h0 hp] at h
    exact .inl ⟨hp, h⟩
  · rw [hN (by rcases hp with hp | hp <;> simp [hp])] at h
    exact .inr (.inl ⟨hp, h⟩)
  · rw [hN (by simp [hp])] at h
    exact .inr (.inr (.inl ⟨hp, h⟩))
  · rw [hK (by simp [hp])] at h
    exact .inr (.inr (.inr (.inl ⟨hp, h⟩)))
  · rw [hK (by simp [hp])] at h
    exact .inr (.inr (.inr (.inr ⟨hp, h⟩)))

/-- Settles O4: a legal word is the encoding of its instruction, so exactly that instruction's row selects it; a row that
selected an illegal word would have an illegal pattern. -/
theorem opcodeMapSelectsExactlyOneRow : Obligations.OpcodeMapSelectsExactlyOneRow := by
  intro w
  cases hd : decodeWord w with
  | ok i =>
    obtain ⟨r, hr, hm, hs⟩ := encodesItsRow i
    rw [encodeInvertsDecode w i hd] at hs
    simp [filter_selects_eq_singleton hr ((r.selects_iff w).2 hs), hm]
  | error e =>
    have hnone : (opcodeMap.filter fun r => r.selects w) = [] := List.filter_eq_nil_iff.2 fun r hr hs => by
      obtain ⟨e', he⟩ := (opcodeMap_coversDispatch r hr).pattern_error hs ⟨e, hd⟩
      have hok := opcodeMap_pattern_decodes r hr
      rw [he] at hok
      exact Bool.noConfusion hok
    simp [hnone]

end Sys2Proof

/-! The control-flow instructions (40_control_flow.md; O10 to O15). The jumps and skips write `PC` alone; CALL and RET
write `PC` and the stack, or stop the machine at the stack's two ends. -/

namespace Sys2Proof.Machine

/-! ### Jump targets -/

@[simp] theorem addressOperand_toNat (nnn : Addr12) : (addressOperand nnn).toNat = nnn.toNat :=
  BitVec.toNat_setWidth_of_le (by decide)

@[simp] theorem widen_toNat (b : Byte) : (widen b).toNat = b.toNat :=
  BitVec.toNat_setWidth_of_le (by decide)

/-- The target of JP_V0 needs no more than 16 bits (R107). -/
theorem addressOperand_add_widen_toNat (nnn : Addr12) (b : Byte) :
    (addressOperand nnn + widen b).toNat = nnn.toNat + b.toNat := by
  have hn := nnn.isLt
  have hb := b.isLt
  rw [BitVec.toNat_add_of_lt (by rw [addressOperand_toNat, widen_toNat]; omega), addressOperand_toNat, widen_toNat]

/-! ### The jumps and the skips write `PC` only -/

theorem onlyPC_setPC (s : State) (p : Word) : onlyPC s (s.setPC p) :=
  ⟨fun _ _ => rfl, rfl, ⟨rfl, rfl⟩, fun _ => rfl, rfl, rfl, ⟨rfl, rfl, rfl⟩, rfl, ⟨rfl, rfl, rfl, rfl⟩, rfl⟩

/-- Settles O10: both jumps replace `PC` by their target. -/
theorem jumpsReplacePC : Obligations.JumpsReplacePC := fun s nnn =>
  ⟨⟨_, rfl, addressOperand_toNat nnn, onlyPC_setPC s _⟩,
    ⟨_, rfl, addressOperand_add_widen_toNat nnn (s.getV 0), onlyPC_setPC s _⟩⟩

/-- A skip after the advance of `PC` leaves `a + 4` when its condition holds and `a + 2` otherwise. -/
theorem skipIf_advancePC (s : State) (c : Bool) :
    s.advancePC.skipIf c = s.setPC (if c then s.pc + 4 else s.pc + 2) := by
  cases c with
  | false => rfl
  | true => exact congrArg s.setPC (BitVec.add_assoc s.pc 2 2)

theorem skipIf_advancePC_onlyPC (s : State) (c : Bool) : onlyPC s (s.advancePC.skipIf c) := by
  rw [skipIf_advancePC]
  exact onlyPC_setPC s _

theorem skipIf_pc_of_holds (s : State) (P : Prop) [Decidable P] :
    (s.advancePC.skipIf (decide P)).pc = if P then s.pc + 4 else s.pc + 2 := by
  rw [skipIf_advancePC, State.setPC_pc]
  simp only [decide_eq_true_eq]

theorem skipIf_pc_of_fails (s : State) (P : Prop) [Decidable P] :
    (s.advancePC.skipIf (decide ¬ P)).pc = if P then s.pc + 2 else s.pc + 4 :=
  (skipIf_pc_of_holds s (¬ P)).trans (ite_not _ _ _)

/-- Settles O11: SE_IMM skips when the comparison holds, SNE_IMM when it fails. -/
theorem immediateSkips : Obligations.ImmediateSkips := fun s x kk =>
  ⟨⟨_, rfl, skipIf_pc_of_holds s (s.getV x = kk), skipIf_advancePC_onlyPC s _⟩,
    ⟨_, rfl, skipIf_pc_of_fails s (s.getV x = kk), skipIf_advancePC_onlyPC s _⟩⟩

/-- Settles O12: SE_REG skips when the comparison holds, SNE_REG when it fails. -/
theorem registerSkips : Obligations.RegisterSkips := fun s x y =>
  ⟨⟨_, rfl, skipIf_pc_of_holds s (s.getV x = s.getV y), skipIf_advancePC_onlyPC s _⟩,
    ⟨_, rfl, skipIf_pc_of_fails s (s.getV x = s.getV y), skipIf_advancePC_onlyPC s _⟩⟩

/-! ### CALL and RET within the stack's bounds -/

theorem execCall_of_lt (nnn : Addr12) {s : State} (h : s.sp.val < 16) :
    execCall nnn s = .next { s with
      pc := addressOperand nnn
      stack := s.stack.set s.sp.val (s.pc + 2) h
      sp := ⟨s.sp.val + 1, by omega⟩ } := by
  rw [execCall, State.push_of_lt s.advancePC _ h]
  rfl

theorem execRet_of_sp {s : State} {k : Fin 16} (h : s.sp.val = k.val + 1) :
    execRet s = .next { s with pc := s.stack[k.val], sp := k.castSucc } := by
  have hsp : s.sp = k.succ := Fin.ext h
  rw [execRet, State.pop_of_pos s.advancePC (by rw [State.advancePC_sp]; omega)]
  simp only [State.advancePC_sp, State.advancePC_stack, hsp, Fin.val_succ, Nat.add_sub_cancel]
  rfl

/-- What CALL and RET leave alone: everything but `PC`, the stack and `SP`. -/
theorem frame_of_stack_update (s : State) (p : Word) (entries : Vector Word 16) (depth : Fin 17) :
    let t := { s with pc := p, stack := entries, sp := depth }
    sameRegs s t ∧ sameIndex s t ∧ sameMemory s t ∧ sameDisplay s t ∧ sameTimers s t ∧ sameControl s t :=
  ⟨fun _ => rfl, rfl, fun _ => rfl, rfl, rfl, ⟨rfl, rfl, rfl⟩, rfl, ⟨rfl, rfl, rfl, rfl⟩, rfl⟩

/-- Settles O13: the push writes entry `SP` and no other. -/
theorem callPushesReturnAddress : Obligations.CallPushesReturnAddress := by
  intro s nnn hd
  refine ⟨_, execCall_of_lt nnn hd, addressOperand_toNat nnn, rfl, fun k => ?_, frame_of_stack_update s _ _ _⟩
  simp only [Vector.getElem_set, eq_comm]

/-- Settles O14: the pop reads the top entry and writes none. -/
theorem returnPopsReturnAddress : Obligations.ReturnPopsReturnAddress := fun s _ h =>
  ⟨_, execRet_of_sp h, rfl, rfl, rfl, frame_of_stack_update s _ s.stack _⟩

/-! ### CALL and RET at the stack's two ends -/

theorem execCall_full (nnn : Addr12) {s : State} (h : s.sp.val = 16) :
    execCall nnn s = .next (s.advancePC.fatal .stackOverflow s.pc (encode (.call nnn))) := by
  rw [execCall, State.push_full s.advancePC _ h]

theorem execRet_empty {s : State} (h : s.sp.val = 0) :
    execRet s = .next (s.advancePC.fatal .stackUnderflow s.pc (encode .ret)) := by
  rw [execRet, State.pop_empty s.advancePC h]

/-- Settles O15: `State.fatal` after the advance of `PC` is the record update stated. -/
theorem stackFatalConditions : Obligations.StackFatalConditions := fun _ nnn =>
  ⟨execCall_full nnn, execRet_empty⟩

end Sys2Proof.Machine

/-! The arithmetic instructions (41_arithmetic.md; O17 to O22). Each answers the state with `PC` advanced and either one
register written, or a result and then the flag: two frames serve all of them, and what is left of an instruction is
the value of its result and of its flag as numbers. -/

namespace Sys2Proof.Machine

/-! ### The two writes and their frames -/

/-- A write of `PC` and registers leaves the rest alone: the registers outside `W` are all there is to show. -/
theorem onlyRegs_of_regs_update {W : Nibble → Prop} {s : State} {p : Word} {w : Vector Byte 16}
    (h : sameRegsExcept W s { s with pc := p, v := w }) : onlyRegs W s { s with pc := p, v := w } :=
  ⟨h, rfl, ⟨rfl, rfl⟩, fun _ => rfl, rfl, rfl, ⟨rfl, rfl, rfl⟩, rfl, ⟨rfl, rfl, rfl, rfl⟩, rfl⟩

theorem onlyRegs_setV (s : State) (x : Nibble) (b : Byte) :
    onlyRegs (fun r => r = x) s (s.advancePC.setV x b) :=
  onlyRegs_of_regs_update fun _ hr => State.getV_setV_other s.advancePC b hr

theorem onlyRegs_setResultAndFlag (s : State) (x : Nibble) (b f : Byte) :
    onlyRegs (fun r => r = x ∨ r = vf) s (s.advancePC.setResultAndFlag x b f) :=
  onlyRegs_of_regs_update fun r hr => by
    obtain ⟨hx, hf⟩ := not_or.1 hr
    exact (State.getV_setResultAndFlag s.advancePC x r b f).trans ((if_neg hf).trans (if_neg hx))

/-- The flag leaves the result alone unless both go to `VF`. -/
theorem State.getV_setResultAndFlag_result (s : State) {x : Nibble} (b f : Byte) (h : x ≠ vf) :
    (s.setResultAndFlag x b f).getV x = b := by
  rw [State.getV_setResultAndFlag, if_neg h, if_pos rfl]

/-! ### Flags and differences as numbers -/

theorem flagByte_toNat (c : Bool) : (flagByte c).toNat = c.toNat := by
  cases c <;> rfl

theorem flagByte_decide_toNat (P : Prop) [Decidable P] : (flagByte (decide P)).toNat = if P then 1 else 0 :=
  (flagByte_toNat (decide P)).trans (Bool.cond_decide P 1 0)

/-- The carry is the ninth bit of the exact sum. -/
theorem carryFlag_toNat (p q : Byte) : (carryFlag p q).toNat = (p.toNat + q.toNat) / 256 := by
  have hp := p.isLt
  have hq := q.isLt
  rw [carryFlag, flagByte_decide_toNat]
  split <;> omega

theorem noBorrowFlag_toNat (p q : Byte) :
    (noBorrowFlag p q).toNat = if q.toNat ≤ p.toNat then 1 else 0 :=
  flagByte_decide_toNat _

theorem shiftedOutRight_toNat (b : Byte) : (shiftedOutRight b).toNat = b.toNat % 2 := by
  rw [shiftedOutRight, flagByte_toNat, BitVec.getLsbD, Nat.toNat_testBit, Nat.pow_zero, Nat.div_one]

theorem shiftedOutLeft_toNat (b : Byte) : (shiftedOutLeft b).toNat = b.toNat / 128 := by
  have hb := b.isLt
  rw [shiftedOutLeft, flagByte_toNat, BitVec.getLsbD, Nat.toNat_testBit]
  omega

theorem toNat_sub_eq_emod (p q : Byte) : ((p - q).toNat : Int) = (p.toNat - q.toNat : Int) % 256 := by
  have hp := p.isLt
  have hq := q.isLt
  rw [BitVec.toNat_sub]
  omega

/-! ### One register written -/

/-- The printed pattern `6xkk` is the encoding of LD_IMM. -/
theorem encode_ldImm_eq_ofNat (x : Nibble) (kk : Byte) :
    encode (.ldImm x kk) = BitVec.ofNat 16 (0x6000 + 256 * x.toNat + kk.toNat) := by
  have hop := fieldOp_toNat (formatI 0x6#4 x kk)
  have hx := fieldX_toNat (formatI 0x6#4 x kk)
  have hkk := fieldKk_toNat (formatI 0x6#4 x kk)
  rw [fieldOp_formatI, BitVec.toNat_ofNat] at hop
  rw [fieldX_formatI] at hx
  rw [fieldKk_formatI] at hkk
  apply BitVec.eq_of_toNat_eq
  rw [BitVec.toNat_ofNat, encode]
  omega

/-- Settles O17: the word is the encoding of LD_IMM, so it decodes back. -/
theorem loadImmediateSetsRegister : Obligations.LoadImmediateSetsRegister := fun s x kk =>
  ⟨encode_ldImm_eq_ofNat x kk ▸ decodeWord_encode (.ldImm x kk),
    _, rfl, State.getV_setV_same _ x kk, rfl, onlyRegs_setV s x kk⟩

/-- Settles O18: a sum of bytes is the sum modulo 256. -/
theorem addImmediateAndCopy : Obligations.AddImmediateAndCopy := by
  intro s x y kk
  refine ⟨⟨_, rfl, ?sum, rfl, onlyRegs_setV s x _⟩, ⟨_, rfl, State.getV_setV_same _ x _, rfl, onlyRegs_setV s x _⟩⟩
  case sum => rw [State.getV_setV_same, BitVec.toNat_add]

/-! ### A result, then the flag -/

/-- Settles O19: the flag written last is 0, and the result is combined bit by bit. -/
theorem bitwiseOpsClearVF : Obligations.BitwiseOpsClearVF := by
  intro s x y
  refine
    ⟨⟨_, rfl, State.getV_setResultAndFlag_vf _ x _ 0, rfl, fun hx k => ?or, onlyRegs_setResultAndFlag s x _ 0⟩,
      ⟨_, rfl, State.getV_setResultAndFlag_vf _ x _ 0, rfl, fun hx k => ?and, onlyRegs_setResultAndFlag s x _ 0⟩,
      ⟨_, rfl, State.getV_setResultAndFlag_vf _ x _ 0, rfl, fun hx k => ?xor, onlyRegs_setResultAndFlag s x _ 0⟩⟩
  case or => rw [State.getV_setResultAndFlag_result _ _ _ hx, BitVec.getLsbD_or]
  case and => rw [State.getV_setResultAndFlag_result _ _ _ hx, BitVec.getLsbD_and]
  case xor => rw [State.getV_setResultAndFlag_result _ _ _ hx, BitVec.getLsbD_xor]

/-- Settles O20: the result is the exact sum modulo 256 and the flag its quotient. -/
theorem addRegisterCarry : Obligations.AddRegisterCarry := by
  intro s x y
  refine ⟨_, rfl, ?carry, fun hx => ?sum, rfl, onlyRegs_setResultAndFlag s x _ _⟩
  case carry => rw [State.getV_setResultAndFlag_vf, carryFlag_toNat]
  case sum => rw [State.getV_setResultAndFlag_result _ _ _ hx, BitVec.toNat_add]

/-- Settles O21: SUBN is SUB with the operands exchanged, both in the difference and in the flag. -/
theorem subtractionsNoBorrow : Obligations.SubtractionsNoBorrow := by
  intro s x y
  refine ⟨⟨_, rfl, ?flag, fun hx => ?difference, rfl, onlyRegs_setResultAndFlag s x _ _⟩,
    ⟨_, rfl, ?flagReversed, fun hx => ?differenceReversed, rfl, onlyRegs_setResultAndFlag s x _ _⟩⟩
  case flag | flagReversed => rw [State.getV_setResultAndFlag_vf, noBorrowFlag_toNat]
  case difference | differenceReversed => rw [State.getV_setResultAndFlag_result _ _ _ hx, toNat_sub_eq_emod]

/-- Settles O22: both shifts take `V[y]`, which is halved or doubled, and flag the bit at the end they shift towards. -/
theorem shiftsReadSecondOperand : Obligations.ShiftsReadSecondOperand := by
  intro s x y
  refine ⟨⟨_, rfl, ?lowBit, fun hx => ?half, rfl, onlyRegs_setResultAndFlag s x _ _⟩,
    ⟨_, rfl, ?highBit, fun hx => ?double, rfl, onlyRegs_setResultAndFlag s x _ _⟩⟩
  case lowBit => rw [State.getV_setResultAndFlag_vf, shiftedOutRight_toNat]
  case half => rw [State.getV_setResultAndFlag_result _ _ _ hx, BitVec.toNat_ushiftRight, Nat.shiftRight_one]
  case highBit => rw [State.getV_setResultAndFlag_vf, shiftedOutLeft_toNat]
  case double =>
    rw [State.getV_setResultAndFlag_result _ _ _ hx, BitVec.toNat_shiftLeft, Nat.shiftLeft_eq, Nat.pow_one,
      Nat.mul_comm]

end Sys2Proof.Machine

/-! The memory and index-register instructions (42_memory_index.md; O23 to O27). Sixteen offsets from `I` name sixteen
different bytes, and sixteen numbers sixteen different registers, so in each loop no pass undoes an earlier one. -/

namespace Sys2Proof.Machine

/-! ### What these instructions leave alone -/

theorem frame_of_memory_index_update (s : State) (p index : Word) (m : Memory) :
    let t := { s with pc := p, mem := m, i := index }
    sameStack s t ∧ sameDisplay s t ∧ sameTimers s t ∧ sameControl s t :=
  ⟨⟨rfl, rfl⟩, rfl, rfl, ⟨rfl, rfl, rfl⟩, rfl, ⟨rfl, rfl, rfl, rfl⟩, rfl⟩

theorem frame_of_regs_index_update (s : State) (p index : Word) (regs : Vector Byte 16) :
    let t := { s with pc := p, v := regs, i := index }
    sameStack s t ∧ sameMemory s t ∧ sameDisplay s t ∧ sameTimers s t ∧ sameControl s t :=
  ⟨⟨rfl, rfl⟩, fun _ => rfl, rfl, rfl, ⟨rfl, rfl, rfl⟩, rfl, ⟨rfl, rfl, rfl, rfl⟩, rfl⟩

theorem frame_of_setI (s : State) (a : Word) :
    let t := s.advancePC.setI a
    sameRegs s t ∧ sameStack s t ∧ sameMemory s t ∧ sameDisplay s t ∧ sameTimers s t ∧ sameControl s t :=
  ⟨fun _ => rfl, frame_of_regs_index_update s _ a s.v⟩

/-! ### Addresses and register numbers of a loop -/

theorem toNat_ofNat_of_lt {w k : Nat} (h : k < 2 ^ w) : (BitVec.ofNat w k).toNat = k :=
  (BitVec.toNat_ofNat k w).trans (Nat.mod_eq_of_lt h)

/-- Adding the offset modulo 65536 before the mask is adding it modulo 4096. -/
theorem memAddress_indexed (s : State) (k : Nat) : memAddress (s.indexed k) = (s.i.toNat + k) % 4096 := by
  rw [memAddress_eq, State.indexed, BitVec.toNat_add, BitVec.toNat_ofNat]
  omega

theorem memAddress_indexed_inj (s : State) {j k : Nat} (hj : j < 16) (hk : k < 16)
    (h : memAddress (s.indexed j) = memAddress (s.indexed k)) : j = k := by
  rw [memAddress_indexed, memAddress_indexed] at h
  omega

@[simp] theorem registerNumber_toNat (k : Nibble) : registerNumber k.toNat = k :=
  (BitVec.ofNat_toNat 4 k).trans (BitVec.setWidth_eq k)

theorem registerNumber_inj {j k : Nat} (hj : j < 16) (hk : k < 16) (h : registerNumber j = registerNumber k) :
    j = k := by
  have hval := congrArg BitVec.toNat h
  rwa [registerNumber, registerNumber, toNat_ofNat_of_lt hj, toNat_ofNat_of_lt hk] at hval

/-- Both loops count from 0 to `x`. -/
theorem mem_loopRange {x : Nibble} {k : Nat} : k ∈ List.range (x.toNat + 1) ↔ k ≤ x.toNat :=
  List.mem_range.trans Nat.lt_succ_iff

theorem lt_sixteen_of_mem_loopRange {x : Nibble} {k : Nat} (h : k ∈ List.range (x.toNat + 1)) : k < 16 :=
  (mem_loopRange.1 h).trans_lt (nibble_lt x)

theorem advancedIndex_toNat (a : Word) (x : Nibble) :
    (a + BitVec.ofNat 16 (x.toNat + 1)).toNat = (a.toNat + x.toNat + 1) % 65536 := by
  rw [BitVec.toNat_add, BitVec.toNat_ofNat]
  omega

/-! ### LD_B -/

theorem hundreds_toNat (b : Byte) : (hundreds b).toNat = b.toNat / 100 :=
  toNat_ofNat_of_lt (by have := b.isLt; omega)

theorem tens_toNat (b : Byte) : (tens b).toNat = b.toNat / 10 % 10 :=
  toNat_ofNat_of_lt (by omega)

theorem units_toNat (b : Byte) : (units b).toNat = b.toNat % 10 :=
  toNat_ofNat_of_lt (by omega)

/-- The bytes at the three addresses, which later stores of the three leave alone. -/
theorem read_storeDigits (s : State) (b : Byte) :
    Memory.read (s.storeDigits b).mem (memAddress (s.indexed 0)) = hundreds b
    ∧ Memory.read (s.storeDigits b).mem (memAddress (s.indexed 1)) = tens b
    ∧ Memory.read (s.storeDigits b).mem (memAddress (s.indexed 2)) = units b := by
  have hne (j k : Fin 16) (h : j ≠ k) : memAddress (s.indexed j.val) ≠ memAddress (s.indexed k.val) :=
    fun heq => h (Fin.ext (memAddress_indexed_inj s j.isLt k.isLt heq))
  refine ⟨?first, ?second, Memory.read_write_same _ _ _⟩
  case first =>
    exact (Memory.read_write_other _ _ (hne 0 2 (by decide))).trans
      ((Memory.read_write_other _ _ (hne 0 1 (by decide))).trans (Memory.read_write_same _ _ _))
  case second =>
    exact (Memory.read_write_other _ _ (hne 1 2 (by decide))).trans (Memory.read_write_same _ _ _)

/-- Settles O25: the three addresses differ, so each keeps its digit. -/
theorem decimalDigitsStored : Obligations.DecimalDigitsStored := by
  intro s x
  obtain ⟨hhundreds, htens, hunits⟩ := read_storeDigits s.advancePC (s.getV x)
  exact ⟨_, rfl, rfl, (congrArg BitVec.toNat hhundreds).trans (hundreds_toNat _),
    (congrArg BitVec.toNat htens).trans (tens_toNat _), (congrArg BitVec.toNat hunits).trans (units_toNat _),
    fun _ ha => read_storeDigits_other s.advancePC _ ha, fun _ => rfl, rfl, frame_of_memory_index_update s _ _ _⟩

/-! ### LD_MEM_VX -/

/-- A pass of the loop stores its register, and no later pass stores to the same address. -/
theorem read_storeRegisters {l : List Nat} (s : State) (hnodup : l.Nodup) (hlt : ∀ j ∈ l, j < 16) {k : Nat}
    (hk : k ∈ l) :
    Memory.read (l.foldl State.storeRegister s).mem (memAddress (s.indexed k)) = s.getV (registerNumber k) := by
  induction l generalizing s with
  | nil => cases hk
  | cons j l ih =>
    obtain ⟨hj, htail⟩ := List.nodup_cons.1 hnodup
    obtain ⟨hj16, hrest⟩ := List.forall_mem_cons.1 hlt
    obtain rfl | hk := List.mem_cons.1 hk
    · have hlater : ∀ i ∈ l, memAddress (s.indexed k) ≠ memAddress (s.indexed i) := fun i hi h =>
        hj (memAddress_indexed_inj s hj16 (hrest i hi) h ▸ hi)
      exact (read_storeRegisters_other l (s.storeRegister k) hlater).trans (Memory.read_write_same _ _ _)
    · exact ih (s.storeRegister j) htail hrest hk

theorem execLdMemVx_eq (x : Nibble) (s : State) :
    execLdMemVx x s = .next { s with
      pc := s.pc + 2
      mem := ((List.range (x.toNat + 1)).foldl State.storeRegister s.advancePC).mem
      i := s.i + BitVec.ofNat 16 (x.toNat + 1) } := by
  obtain ⟨_, hloop⟩ := State.storeRegisters_frame (List.range (x.toNat + 1)) s.advancePC
  rw [execLdMemVx, hloop]
  rfl

/-- Settles O26, by the two laws of the loop: what it stores and what it leaves. -/
theorem registersStored : Obligations.RegistersStored := by
  intro s x
  refine ⟨_, execLdMemVx_eq x s, rfl, advancedIndex_toNat s.i x, fun k hk => ?stored, fun a ha => ?other,
    fun _ => rfl, frame_of_memory_index_update s _ _ _⟩
  case stored =>
    have h := read_storeRegisters s.advancePC List.nodup_range (fun _ => lt_sixteen_of_mem_loopRange)
      (mem_loopRange.2 hk)
    rwa [registerNumber_toNat] at h
  case other =>
    exact read_storeRegisters_other _ s.advancePC fun k hk => ha k (mem_loopRange.1 hk)

/-! ### LD_VX_MEM -/

/-- A pass of the loop loads its register, and no later pass loads the same one. -/
theorem loadRegisters_getV {l : List Nat} (s : State) (hnodup : l.Nodup) (hlt : ∀ j ∈ l, j < 16) {k : Nat}
    (hk : k ∈ l) : (l.foldl State.loadRegister s).getV (registerNumber k) = s.memRead (s.indexed k) := by
  induction l generalizing s with
  | nil => cases hk
  | cons j l ih =>
    obtain ⟨hj, htail⟩ := List.nodup_cons.1 hnodup
    obtain ⟨hj16, hrest⟩ := List.forall_mem_cons.1 hlt
    obtain rfl | hk := List.mem_cons.1 hk
    · have hlater : ∀ i ∈ l, registerNumber k ≠ registerNumber i := fun i hi h =>
        hj (registerNumber_inj hj16 (hrest i hi) h ▸ hi)
      exact (loadRegisters_getV_other l (s.loadRegister k) hlater).trans (State.getV_setV_same _ _ _)
    · exact ih (s.loadRegister j) htail hrest hk

theorem execLdVxMem_eq (x : Nibble) (s : State) :
    execLdVxMem x s = .next { s with
      pc := s.pc + 2
      v := ((List.range (x.toNat + 1)).foldl State.loadRegister s.advancePC).v
      i := s.i + BitVec.ofNat 16 (x.toNat + 1) } := by
  obtain ⟨_, hloop⟩ := State.loadRegisters_frame (List.range (x.toNat + 1)) s.advancePC
  rw [execLdVxMem, hloop]
  rfl

/-- A register above `x` is none of those the loop counts through. -/
theorem ne_registerNumber_of_lt {r x : Nibble} (hr : x.toNat < r.toNat) {k : Nat} (hk : k ≤ x.toNat) :
    r ≠ registerNumber k := by
  unfold registerNumber
  bv_omega

/-- Settles O27, by the two laws of the loop: what it loads and what it leaves. -/
theorem registersLoaded : Obligations.RegistersLoaded := by
  intro s x
  refine ⟨_, execLdVxMem_eq x s, rfl, advancedIndex_toNat s.i x, fun k hk => ?loaded, fun r hr => ?other,
    frame_of_regs_index_update s _ _ _⟩
  case loaded =>
    have h := loadRegisters_getV s.advancePC List.nodup_range (fun _ => lt_sixteen_of_mem_loopRange)
      (mem_loopRange.2 hk)
    rwa [registerNumber_toNat] at h
  case other =>
    exact loadRegisters_getV_other _ s.advancePC fun k hk =>
      ne_registerNumber_of_lt (Nat.not_le.1 hr) (mem_loopRange.1 hk)

/-! ### LD_I, ADD_I and LD_F -/

/-- Settles O23: the address operand is `nnn` and the sum of words is the sum modulo 65536. -/
theorem indexLoadAndAdd : Obligations.IndexLoadAndAdd := by
  intro s x nnn
  refine ⟨⟨_, rfl, addressOperand_toNat nnn, rfl, frame_of_setI s _⟩, ⟨_, rfl, ?sum, rfl, frame_of_setI s _⟩⟩
  case sum => rw [State.setI_i, BitVec.toNat_add, widen_toNat]

theorem digitOf_toNat (s : State) (x : Nibble) : (s.digitOf x).toNat = (s.getV x).toNat % 16 := by
  rw [State.digitOf, BitVec.extractLsb'_toNat, Nat.shiftRight_zero]

theorem glyphAddress_toNat (d : Nibble) : (glyphAddress d).toNat = 0x050 + 5 * d.toNat :=
  toNat_ofNat_of_lt (k := 0x050 + 5 * d.toNat) (by have := nibble_lt d; omega)

/-- Settles O24: the glyph's address needs no more than 16 bits. -/
theorem fontAddress : Obligations.FontAddress := by
  intro s x
  refine ⟨_, rfl, ?glyph, rfl, frame_of_setI s _⟩
  case glyph => rw [State.setI_i, glyphAddress_toNat, digitOf_toNat]

end Sys2Proof.Machine

/-! The random-number instruction (43_random.md; O28). The draw is opaque, so what is shown holds for every draw. -/

namespace Sys2Proof.Machine

/-- Consuming the draw commutes with the advance of `PC`, so RND is one register write on the state whose draw is
consumed, and the frame of such a write serves it. -/
theorem execRnd_eq (x : Nibble) (kk : Byte) (s : State) :
    execRnd x kk s = .next (s.consumeDraw.advancePC.setV x (s.drawnByte &&& kk)) := rfl

/-- Settles O28: the register written holds the draw under the mask, and the frame is that of one register write. -/
theorem randomByteUnderMask : Obligations.RandomByteUnderMask := by
  intro s x kk
  obtain ⟨hregs, hindex, hstack, hmemory, hdisplay, htimers, hrun, hdiag, hhost, hdraws⟩ :=
    onlyRegs_setV s.consumeDraw x (s.drawnByte &&& kk)
  refine ⟨_, execRnd_eq x kk s, State.getV_setV_same _ x _, hdraws, fun k hk => ?maskedOut, rfl,
    hregs, hindex, hstack, hmemory, hdisplay, htimers, hrun, hdiag, hhost⟩
  case maskedOut => rw [State.getV_setV_same, BitVec.getLsbD_and, hk, Bool.and_false]

end Sys2Proof.Machine


/-! The display instructions (44_display.md; O29 to O32). A pixel, a loop and a framebuffer byte all do one thing: they
exclusive-or a mask into the framebuffer and set `VF` when the mask meets a lit pixel. Such drawings compose, and a
drawing is determined by its mask, so the pixel loop and the byte-level form agree once their masks do. -/

namespace Sys2Proof.Machine

/-! ### CLS, and what both display instructions leave alone -/

/-- What CLS and DRW leave alone: everything but `PC`, the registers and the framebuffer. -/
theorem frame_of_drawing_update (s : State) (p : Word) (regs : Vector Byte 16) (shown : Vector Byte 256) :
    let t := { s with pc := p, v := regs, display := shown }
    sameIndex s t ∧ sameStack s t ∧ sameMemory s t ∧ sameTimers s t ∧ sameControl s t :=
  ⟨rfl, ⟨rfl, rfl⟩, fun _ => rfl, rfl, ⟨rfl, rfl, rfl⟩, rfl, ⟨rfl, rfl, rfl, rfl⟩, rfl⟩

/-- Settles O29: of the words below 0x1000, the decoder refuses all but the two listed (R77). -/
theorem clearScreen : Obligations.ClearScreen := by
  refine ⟨by decide, fun w hw hcls hret => ?refused, fun s => ⟨_, rfl, fun k => ?dark, rfl, fun _ => rfl,
    frame_of_drawing_update s _ s.v _⟩⟩
  case refused =>
    rw [ne_eq, ← BitVec.toNat_inj] at hcls hret
    simp only [BitVec.reduceToNat] at hcls hret
    exact (illegalWordsAreExactlyTheListed w).2 (.inl (by omega))
  case dark => rw [State.clearDisplay_display, Vector.getElem_replicate]

/-! ### Pixels and framebuffer bytes -/

theorem exists_pixel_at (k : Fin 256) {i : Nat} (hi : i < 8) : ∃ px py, pixelIndex px py = k ∧ pixelBit px = i := by
  refine ⟨⟨k.val % 8 * 8 + (7 - i), by omega⟩, ⟨k.val / 8, by omega⟩, Fin.ext ?_, ?_⟩ <;>
  simp only [pixelIndex, pixelBit] <;> omega

theorem display_eq_of_pixel_eq {s t : State} (h : ∀ px py, t.pixel px py = s.pixel px py) :
    t.display = s.display := by
  apply Vector.ext
  intro k hk
  apply BitVec.eq_of_getLsbD_eq
  intro i hi
  obtain ⟨px, py, hindex, rfl⟩ := exists_pixel_at ⟨k, hk⟩ hi
  have hp := h px py
  simpa only [State.pixel, hindex] using hp

theorem regs_eq_of_getV_eq {s t : State} (h : ∀ r, t.getV r = s.getV r) : t.v = s.v := by
  apply Vector.ext
  intro k hk
  have hr := h (registerNumber k)
  simpa only [State.getV, registerNumber, toNat_ofNat_of_lt (w := 4) hk] using hr

/-- Two bytes have a set bit in common exactly when their conjunction is not 0. -/
theorem and_ne_zero_iff (a b : Byte) : a &&& b ≠ 0 ↔ ∃ i < 8, a.getLsbD i = true ∧ b.getLsbD i = true := by
  rw [← not_iff_not, not_not]
  constructor
  · rintro h ⟨i, -, ha, hb⟩
    have hbit := congrArg (·.getLsbD i) h
    simp [ha, hb] at hbit
  · intro h
    apply BitVec.eq_of_getLsbD_eq
    intro i hi
    simpa using fun ha => Bool.eq_false_iff.2 fun hb => h ⟨i, hi, ha, hb⟩

/-! ### Drawing a mask -/

/-- A set of pixels. -/
abbrev PixelMask := Fin 64 → Fin 32 → Bool

/-- Some lit pixel lies under the mask. -/
def State.collides (s : State) (mask : PixelMask) : Prop :=
  ∃ px py, s.pixel px py = true ∧ mask px py = true

/-- `t` is `s` with the mask exclusive-ored into the framebuffer and `VF` set on a collision, else kept. -/
structure State.XoredBy (mask : PixelMask) (s t : State) : Prop where
  frame : s.sameButDrawing t
  pixel : ∀ px py, t.pixel px py = (s.pixel px py ^^ mask px py)
  regs : sameRegsExcept (fun r => r = vf) s t
  flag_of_collision : s.collides mask → t.getV vf = 1
  flag_of_no_collision : ¬ s.collides mask → t.getV vf = s.getV vf

theorem State.XoredBy.congr {m m' : PixelMask} {s t : State} (h : State.XoredBy m s t)
    (hm : ∀ px py, m px py = m' px py) : State.XoredBy m' s t :=
  (funext₂ hm : m = m') ▸ h

/-- The empty mask draws nothing. -/
theorem State.XoredBy.refl (s : State) : State.XoredBy (fun _ _ => false) s s where
  frame := ⟨s.v, s.display, rfl⟩
  pixel _ _ := (Bool.xor_false _).symm
  regs _ _ := rfl
  flag_of_collision := fun ⟨_, _, _, h⟩ => Bool.noConfusion h
  flag_of_no_collision _ := rfl

/-- Drawings under disjoint masks compose: the first leaves the pixels under the second as they were. -/
theorem State.XoredBy.trans {m m' : PixelMask} {s t u : State} (h : State.XoredBy m s t)
    (h' : State.XoredBy m' t u) (hdisj : ∀ px py, m' px py = true → m px py = false) :
    State.XoredBy (fun px py => m px py || m' px py) s u := by
  have hunder (px py) (hm : m' px py = true) : t.pixel px py = s.pixel px py := by
    rw [h.pixel, hdisj px py hm, Bool.xor_false]
  refine ⟨State.sameButDrawing_trans h.frame h'.frame, fun px py => ?pixel,
    fun r hr => (h'.regs r hr).trans (h.regs r hr), ?hit, fun hnone => ?miss⟩
  case pixel =>
    rw [h'.pixel, h.pixel, Bool.xor_assoc]
    cases hm : m' px py with
    | false => simp
    | true => simp [hdisj px py hm]
  case hit =>
    rintro ⟨px, py, hlit, hmask⟩
    obtain hm | hm := (Bool.or_eq_true _ _).mp hmask
    · by_cases hc : t.collides m'
      · exact h'.flag_of_collision hc
      · exact (h'.flag_of_no_collision hc).trans (h.flag_of_collision ⟨px, py, hlit, hm⟩)
    · exact h'.flag_of_collision ⟨px, py, (hunder px py hm).trans hlit, hm⟩
  case miss =>
    have hfirst : ¬ s.collides m := fun ⟨px, py, hlit, hm⟩ => hnone ⟨px, py, hlit, by simp [hm]⟩
    have hsecond : ¬ t.collides m' := fun ⟨px, py, hlit, hm⟩ =>
      hnone ⟨px, py, (hunder px py hm).symm.trans hlit, by simp [hm]⟩
    exact (h'.flag_of_no_collision hsecond).trans (h.flag_of_no_collision hfirst)

/-- From a clear `VF`, the drawing leaves the flag of a collision. -/
theorem State.XoredBy.flag {m : PixelMask} {s t : State} (h : State.XoredBy m s t)
    (hclear : s.getV vf = 0) : (t.getV vf = 0 ∨ t.getV vf = 1) ∧ (t.getV vf = 1 ↔ s.collides m) := by
  by_cases hc : s.collides m
  · simp [hc, h.flag_of_collision hc]
  · simp [hc, h.flag_of_no_collision hc, hclear]

/-- The mask determines the drawing. -/
theorem State.XoredBy.unique {m : PixelMask} {s t u : State} (h : State.XoredBy m s t)
    (h' : State.XoredBy m s u) : t = u := by
  have hdisplay : t.display = u.display := display_eq_of_pixel_eq fun px py => by rw [h.pixel, h'.pixel]
  have hregs : t.v = u.v := regs_eq_of_getV_eq fun r => by
    by_cases hr : r = vf
    · subst hr
      by_cases hc : s.collides m
      · rw [h.flag_of_collision hc, h'.flag_of_collision hc]
      · rw [h.flag_of_no_collision hc, h'.flag_of_no_collision hc]
    · rw [h.regs r hr, h'.regs r hr]
  obtain ⟨_, _, rfl⟩ := h.frame
  obtain ⟨_, _, rfl⟩ := h'.frame
  cases hdisplay
  cases hregs
  rfl

/-- A loop whose pass `k` draws the part of a picture at offset `k` draws the part below its bound. -/
theorem State.XoredBy.loop {offset : Fin 64 → Fin 32 → Nat} {picture : PixelMask}
    {pass : State → Nat → State} {s : State} {n : Nat}
    (hpass : ∀ k < n, ∀ t, s.sameButDrawing t →
      State.XoredBy (fun px py => decide (offset px py = k) && picture px py) t (pass t k)) :
    State.XoredBy (fun px py => decide (offset px py < n) && picture px py) s ((List.range n).foldl pass s) := by
  induction n with
  | zero => exact (State.XoredBy.refl s).congr fun px py => by simp
  | succ n ih =>
    have hbelow := ih fun k hk => hpass k (by omega)
    rw [List.range_succ, List.foldl_append]
    refine (hbelow.trans (hpass n (by omega) _ hbelow.frame) fun px py hm => ?disjoint).congr fun px py => ?union
    case disjoint =>
      simp only [Bool.and_eq_true, decide_eq_true_eq] at hm
      simp [hm.1]
    case union => simp only [← Bool.and_or_distrib_right, ← Bool.decide_or, Nat.lt_succ_iff_lt_or_eq]

/-! ### The pixel loop -/

theorem State.xorPixel_xoredBy (s : State) (qx : Fin 64) (qy : Fin 32) :
    State.XoredBy (fun px py => decide (px = qx ∧ py = qy)) s (s.xorPixel qx qy) := by
  have hcollides : s.collides (fun px py => decide (px = qx ∧ py = qy)) ↔ s.pixel qx qy = true := by
    simp [State.collides]
  refine ⟨s.xorPixel_frame qx qy, fun px py => ?pixel, fun r hr => ?regs, fun h => ?hit, fun h => ?miss⟩ <;>
  unfold State.xorPixel
  case pixel => split <;> simp [State.pixel_togglePixel]
  case regs => split <;> simp [State.getV_setV_other _ _ hr]
  case hit => simp [hcollides.1 h]
  case miss => simp [mt hcollides.2 h]

theorem eq_columnAt_iff {x0 px : Fin 64} {b : Nat} (hb : b < 64) : px = columnAt x0 b ↔ columnOffset x0 px = b := by
  simp only [Fin.ext_iff, columnAt, columnOffset]
  omega

theorem eq_rowAt_iff {y0 py : Fin 32} {r : Nat} (hr : r < 32) : py = rowAt y0 r ↔ rowOffset y0 py = r := by
  simp only [Fin.ext_iff, rowAt, rowOffset]
  omega

/-- The mask of one sprite row at row `row` of the display. -/
def rowMask (x0 : Fin 64) (row : Fin 32) (sprite : Byte) (px : Fin 64) (py : Fin 32) : Bool :=
  decide (columnOffset x0 px < 8) && (decide (py = row) && sprite.getLsbD (7 - columnOffset x0 px))

theorem State.drawBit_xoredBy (x0 : Fin 64) (row : Fin 32) (sprite : Byte) (s : State) {b : Nat} (hb : b < 8) :
    State.XoredBy (fun px py => decide (columnOffset x0 px = b)
      && (decide (py = row) && sprite.getLsbD (7 - columnOffset x0 px))) s (State.drawBit x0 row sprite s b) := by
  have hcolumn (px : Fin 64) : px = columnAt x0 b ↔ columnOffset x0 px = b := eq_columnAt_iff (by omega)
  unfold State.drawBit
  split
  case isTrue hset =>
    refine (s.xorPixel_xoredBy (columnAt x0 b) row).congr fun px py => ?_
    by_cases h : columnOffset x0 px = b <;> simp [hcolumn, h, hset]
  case isFalse hclear =>
    refine (State.XoredBy.refl s).congr fun px py => ?_
    by_cases h : columnOffset x0 px = b <;> simp [h, hclear]

theorem State.drawRow_xoredBy (x0 : Fin 64) (y0 : Fin 32) (s : State) (r : Nat) :
    State.XoredBy (rowMask x0 (rowAt y0 r) (s.memRead (s.indexed r))) s (State.drawRow x0 y0 s r) :=
  State.XoredBy.loop fun _ hb t _ => State.drawBit_xoredBy x0 _ _ t hb

/-! ### The byte-level form -/

/-- A byte exclusive-ored into framebuffer byte `k`, a bit set in both being a collision: one half of R168's row. -/
def State.blitByte (s : State) (k : Fin 256) (b : Byte) : State :=
  (if s.display[k.val] &&& b ≠ 0 then s.setV vf 1 else s).xorDisplay k b

/-- The mask of a byte of the framebuffer. -/
def byteMask (k : Fin 256) (b : Byte) (px : Fin 64) (py : Fin 32) : Bool :=
  decide (pixelIndex px py = k) && b.getLsbD (pixelBit px)

@[simp] theorem State.pixel_xorDisplay (s : State) (k : Fin 256) (b : Byte) (px : Fin 64) (py : Fin 32) :
    (s.xorDisplay k b).pixel px py = (s.pixel px py ^^ byteMask k b px py) := by
  simp only [State.pixel, State.xorDisplay, byteMask, Vector.getElem_set]
  by_cases h : pixelIndex px py = k
  · simp [h]
  · simp [h, Fin.val_ne_of_ne (Ne.symm h)]

@[simp] theorem State.getV_xorDisplay (s : State) (k : Fin 256) (b : Byte) (r : Nibble) :
    (s.xorDisplay k b).getV r = s.getV r := rfl

theorem State.setV_xorDisplay (s : State) (k : Fin 256) (b : Byte) (x : Nibble) (c : Byte) :
    (s.xorDisplay k b).setV x c = (s.setV x c).xorDisplay k b := rfl

@[simp] theorem State.setV_setV_same (s : State) (x : Nibble) (b c : Byte) : (s.setV x b).setV x c = s.setV x c := by
  simp only [State.setV, Vector.set_set]

theorem State.collides_byteMask_iff (s : State) (k : Fin 256) (b : Byte) :
    s.collides (byteMask k b) ↔ s.display[k.val] &&& b ≠ 0 := by
  rw [and_ne_zero_iff]
  constructor
  · rintro ⟨px, py, hlit, hmask⟩
    simp only [byteMask, Bool.and_eq_true, decide_eq_true_eq] at hmask
    obtain ⟨rfl, hset⟩ := hmask
    exact ⟨pixelBit px, pixelBit_lt px, hlit, hset⟩
  · rintro ⟨i, hi, hlit, hset⟩
    obtain ⟨px, py, rfl, rfl⟩ := exists_pixel_at k hi
    exact ⟨px, py, hlit, by simp [byteMask, hset]⟩

theorem State.blitByte_xoredBy (s : State) (k : Fin 256) (b : Byte) :
    State.XoredBy (byteMask k b) s (s.blitByte k b) := by
  have hcollides := s.collides_byteMask_iff k b
  refine ⟨?frame, fun px py => ?pixel, fun r hr => ?regs, fun h => ?hit, fun h => ?miss⟩ <;> unfold State.blitByte
  case frame =>
    split
    · exact ⟨_, _, rfl⟩
    · exact ⟨s.v, _, rfl⟩
  case pixel => split <;> simp
  case regs => split <;> simp [State.getV_setV_other _ _ hr]
  case hit => rw [if_pos (hcollides.1 h), State.getV_xorDisplay, State.getV_setV_same]
  case miss => rw [if_neg (mt hcollides.2 h), State.getV_xorDisplay]

theorem leftIndex_ne_rightIndex (x0 : Fin 64) (py : Fin 32) : leftIndex x0 py ≠ rightIndex x0 py := by
  simp only [ne_eq, Fin.ext_iff, leftIndex, rightIndex]
  omega

theorem State.blitByte_display_other (s : State) {j k : Fin 256} (b : Byte) (h : j ≠ k) :
    (s.blitByte k b).display[j.val] = s.display[j.val] := by
  have hne : k.val ≠ j.val := Fin.val_ne_of_ne h.symm
  unfold State.blitByte State.xorDisplay
  split <;> simp [hne]

/-- R168 tests both bytes before it writes either; as the two differ, each may as well be tested when it is written. -/
theorem State.blitByte_blitByte (s : State) {j k : Fin 256} (b c : Byte) (h : j ≠ k) :
    (s.blitByte j b).blitByte k c =
      ((if s.display[j.val] &&& b ≠ 0 ∨ s.display[k.val] &&& c ≠ 0 then s.setV vf 1 else s).xorDisplay j
        b).xorDisplay k c := by
  rw [State.blitByte, s.blitByte_display_other b h.symm, State.blitByte]
  by_cases hj : s.display[j.val] &&& b = 0#8 <;> by_cases hk : s.display[k.val] &&& c = 0#8 <;>
  simp [hj, hk, State.setV_xorDisplay]

theorem State.blitRow_eq_blitByte (x0 : Fin 64) (y0 : Fin 32) (s : State) (r : Nat) :
    State.blitRow x0 y0 s r =
      (s.blitByte (leftIndex x0 (rowAt y0 r)) (leftPart x0 (s.memRead (s.indexed r)))).blitByte
        (rightIndex x0 (rowAt y0 r)) (rightPart x0 (s.memRead (s.indexed r))) :=
  (s.blitByte_blitByte _ _ (leftIndex_ne_rightIndex x0 _)).symm

/-- The left part of R168 is the row over the pixels that are not left of the start column in their byte. -/
theorem byteMask_leftPart (x0 : Fin 64) (row : Fin 32) (sprite : Byte) (px : Fin 64) (py : Fin 32) :
    byteMask (leftIndex x0 row) (leftPart x0 sprite) px py =
      (decide (x0.val % 8 ≤ px.val % 8) && rowMask x0 row sprite px py) := by
  have hindex : pixelIndex px py = leftIndex x0 row ↔ py = row ∧ px.val / 8 = x0.val / 8 := by
    simp only [pixelIndex, leftIndex, Fin.ext_iff]
    omega
  rw [byteMask, rowMask, leftPart, BitVec.getLsbD_ushiftRight, pixelBit]
  by_cases h : x0.val % 8 ≤ px.val % 8
  · have hcolumn : columnOffset x0 px < 8 ↔ px.val / 8 = x0.val / 8 := by
      simp only [columnOffset]
      omega
    by_cases hbyte : px.val / 8 = x0.val / 8
    · have hbit : x0.val % 8 + (7 - px.val % 8) = 7 - columnOffset x0 px := by
        simp only [columnOffset]
        omega
      simp [hindex, hcolumn, hbyte, hbit, h]
    · simp [hindex, hcolumn, hbyte]
  · simp [h, BitVec.getLsbD_of_ge sprite _ (show 8 ≤ x0.val % 8 + (7 - px.val % 8) by omega)]

/-- The right part of R168 is the row over the pixels left of the start column in their byte. -/
theorem byteMask_rightPart (x0 : Fin 64) (row : Fin 32) (sprite : Byte) (px : Fin 64) (py : Fin 32) :
    byteMask (rightIndex x0 row) (rightPart x0 sprite) px py =
      (decide (px.val % 8 < x0.val % 8) && rowMask x0 row sprite px py) := by
  have hindex : pixelIndex px py = rightIndex x0 row ↔ py = row ∧ px.val / 8 = (x0.val / 8 + 1) % 8 := by
    simp only [pixelIndex, rightIndex, Fin.ext_iff]
    omega
  rw [byteMask, rowMask, rightPart, BitVec.getLsbD_shiftLeft, pixelBit]
  by_cases h : px.val % 8 < x0.val % 8
  · have hcolumn : columnOffset x0 px < 8 ↔ px.val / 8 = (x0.val / 8 + 1) % 8 := by
      simp only [columnOffset]
      omega
    by_cases hbyte : px.val / 8 = (x0.val / 8 + 1) % 8
    · have hbit : 7 - px.val % 8 - (8 - x0.val % 8) = 7 - columnOffset x0 px := by
        simp only [columnOffset]
        omega
      have hshifted : ¬ 7 - px.val % 8 < 8 - x0.val % 8 := by omega
      have hbound : 7 - px.val % 8 < 8 := by omega
      simp [hindex, hcolumn, hbyte, hbit, h, hshifted, hbound]
    · simp [hindex, hcolumn, hbyte]
  · have hshifted : 7 - px.val % 8 < 8 - x0.val % 8 := by omega
    simp [h, hshifted]

/-- The two parts of R168 make up the row. -/
theorem byteMask_left_or_right (x0 : Fin 64) (row : Fin 32) (sprite : Byte) (px : Fin 64) (py : Fin 32) :
    (byteMask (leftIndex x0 row) (leftPart x0 sprite) px py
      || byteMask (rightIndex x0 row) (rightPart x0 sprite) px py) = rowMask x0 row sprite px py := by
  rw [byteMask_leftPart, byteMask_rightPart, ← Bool.and_or_distrib_right, ← Bool.decide_or]
  simp [le_or_gt]

theorem State.blitRow_xoredBy (x0 : Fin 64) (y0 : Fin 32) (s : State) (r : Nat) :
    State.XoredBy (rowMask x0 (rowAt y0 r) (s.memRead (s.indexed r))) s (State.blitRow x0 y0 s r) := by
  rw [State.blitRow_eq_blitByte]
  refine ((s.blitByte_xoredBy _ _).trans (State.blitByte_xoredBy _ _ _) fun px py hm => ?disjoint).congr
    (byteMask_left_or_right x0 _ _)
  case disjoint =>
    simp only [byteMask, Bool.and_eq_true, decide_eq_true_eq] at hm
    simp [byteMask, hm.1, (leftIndex_ne_rightIndex x0 (rowAt y0 r)).symm]

/-! ### The sprite -/

/-- Drawing does not move or change the sprite. -/
theorem State.sameButDrawing.memRead_indexed {s t : State} (h : s.sameButDrawing t) (r : Nat) :
    t.memRead (t.indexed r) = s.memRead (s.indexed r) := by
  obtain ⟨_, _, rfl⟩ := h
  rfl

theorem rowOffset_lt (y0 py : Fin 32) : rowOffset y0 py < 32 := Nat.mod_lt _ (by decide)

/-- A sprite is the part of the sprite of full height that lies above its bound. -/
theorem State.spriteOver_eq_cut (s : State) (x0 : Fin 64) (y0 : Fin 32) (n : Nat) (px : Fin 64) (py : Fin 32) :
    s.spriteOver x0 y0 n px py = (decide (rowOffset y0 py < n) && s.spriteOver x0 y0 32 px py) := by
  simp only [State.spriteOver, rowOffset_lt, decide_true, Bool.and_true]
  ac_rfl

/-- A loop whose passes draw the sprite's rows draws the sprite. -/
theorem State.sprite_xoredBy {x0 : Fin 64} {y0 : Fin 32} {pass : State → Nat → State}
    (hpass : ∀ t r, State.XoredBy (rowMask x0 (rowAt y0 r) (t.memRead (t.indexed r))) t (pass t r))
    (s : State) {n : Nat} (hn : n ≤ 32) :
    State.XoredBy (s.spriteOver x0 y0 n) s ((List.range n).foldl pass s) := by
  refine (State.XoredBy.loop (offset := fun _ => rowOffset y0) (picture := s.spriteOver x0 y0 32)
    fun r hr t ht => (hpass t r).congr fun px py => ?row).congr fun px py => (s.spriteOver_eq_cut x0 y0 n px py).symm
  case row =>
    have hrow : py = rowAt y0 r ↔ rowOffset y0 py = r := eq_rowAt_iff (by omega)
    by_cases h : rowOffset y0 py = r
    · simp [rowMask, State.spriteOver, hrow, h, ht.memRead_indexed, show r < 32 by omega]
    · simp [rowMask, hrow, h]

theorem State.drawSprite_xoredBy (s : State) (x0 : Fin 64) (y0 : Fin 32) {n : Nat} (hn : n ≤ 32) :
    State.XoredBy (s.spriteOver x0 y0 n) (s.setV vf 0) (s.drawSprite x0 y0 n) :=
  State.sprite_xoredBy (State.drawRow_xoredBy x0 y0) (s.setV vf 0) hn

/-- Settles O32: both loops draw the sprite's mask. -/
theorem pixelLoopEqualsByteForm : Obligations.PixelLoopEqualsByteForm := fun s x0 y0 n =>
  have hn : n.toNat ≤ 32 := by have := nibble_lt n; omega
  (s.drawSprite_xoredBy x0 y0 hn).unique (State.sprite_xoredBy (State.blitRow_xoredBy x0 y0) (s.setV vf 0) hn)

/-- Settles O30: the drawing starts from a clear `VF`, which only a collision sets. -/
theorem drawXorsSpriteIntoPixels : Obligations.DrawXorsSpriteIntoPixels := by
  intro s x y n
  have hdraw := s.advancePC.drawSprite_xoredBy (startColumn (s.getV x)) (startRow (s.getV y)) (n := n.toNat)
    (by have := nibble_lt n; omega)
  obtain ⟨_, _, ht⟩ := hdraw.frame
  obtain ⟨hbyte, hflag⟩ := hdraw.flag (State.getV_setV_same _ _ _)
  refine ⟨_, rfl, ?pc, hdraw.pixel, hbyte, hflag, fun r hr => ?regs, ?frame⟩
  case pc => exact congrArg State.pc ht
  case regs => exact (hdraw.regs r hr).trans (State.getV_setV_other s.advancePC 0 hr)
  case frame =>
    rw [ht]
    exact frame_of_drawing_update s _ _ _

theorem State.spriteOver_congr {s t : State} (hi : sameIndex s t) (hm : sameMemory s t) (x0 : Fin 64) (y0 : Fin 32)
    (n : Nat) (px : Fin 64) (py : Fin 32) : t.spriteOver x0 y0 n px py = s.spriteOver x0 y0 n px py := by
  simp only [State.spriteOver, State.memRead, State.indexed, hm _, show t.i = s.i from hi]

/-- Settles O31: the second draw exclusive-ors the same mask, which the first has neither moved nor changed. -/
theorem drawingTwiceRestores : Obligations.DrawingTwiceRestores := by
  intro s x y n
  obtain ⟨t, hst, -, hpixel, -, -, hregs, hindex, -, hmem, -, -⟩ := drawXorsSpriteIntoPixels s x y n
  refine ⟨t, hst, hregs x, hregs y, fun hx hy => ?second⟩
  case second =>
    obtain ⟨u, htu, -, hpixel', -, hflag, -⟩ := drawXorsSpriteIntoPixels t x y n
    simp only [hx, hy, State.spriteOver_congr hindex hmem] at hpixel' hflag
    refine ⟨u, htu, display_eq_of_pixel_eq fun px py => ?restored, hflag⟩
    case restored => rw [hpixel', hpixel, Bool.xor_assoc, Bool.xor_self, Bool.xor_false]

end Sys2Proof.Machine

/-! The key instructions (45_keys.md; O33, O34). The skips look up one latch and write `PC` alone; LD_VX_K arms the wait
and hands the budget to the Timer Unit. -/

namespace Sys2Proof.Machine

/-! ### The two skips -/

theorem digitOf_eq_of_toNat {s : State} {x k : Nibble} (hk : k.toNat = (s.getV x).toNat % 16) : s.digitOf x = k :=
  BitVec.eq_of_toNat_eq ((digitOf_toNat s x).trans hk.symm)

theorem skipIf_advancePC_not_pc (s : State) (c : Bool) :
    (s.advancePC.skipIf (!c)).pc = if c then s.pc + 2 else s.pc + 4 := by
  rw [skipIf_advancePC, State.setPC_pc]
  cases c with
  | false => rfl
  | true => rfl

/-- Settles O33: the latch looked up is that of `k`, and both skips write `PC` alone. -/
theorem keySkips : Obligations.KeySkips := by
  intro s x k hk
  obtain rfl : s.digitOf x = k := digitOf_eq_of_toNat hk
  exact ⟨⟨_, rfl, congrArg State.pc (skipIf_advancePC s _), skipIf_advancePC_onlyPC s _⟩,
    ⟨_, rfl, skipIf_advancePC_not_pc s _, skipIf_advancePC_onlyPC s _⟩⟩

/-! ### The armed wait -/

/-- What the wait leaves alone: all but `PC`, the timers and the run state with `key_dest` and the budget. -/
theorem frame_of_awaitKey (s : State) (x : Nibble) :
    let t := s.advancePC.awaitKey x
    sameRegs s t ∧ sameIndex s t ∧ sameStack s t ∧ sameMemory s t ∧ sameDisplay s t ∧ sameDiag s t
      ∧ sameHostSide s t ∧ sameDraws s t :=
  ⟨fun _ => rfl, rfl, ⟨rfl, rfl⟩, fun _ => rfl, rfl, rfl, exec_sameHostSide (.ldVxK x) rfl, rfl⟩

/-- Settles O34: `PC` is advanced before the wait is armed, and the budget handed over is the one before. -/
theorem keyWaitArmed : Obligations.KeyWaitArmed := fun s x =>
  ⟨_, rfl, s.advancePC.awaitKey_keyDest x, s.advancePC.awaitKey_runState x, s.advancePC.awaitKey_budget x,
    s.advancePC.awaitKey_timers x, s.advancePC.awaitKey_pc x, frame_of_awaitKey s x⟩

end Sys2Proof.Machine

/-! The timer-access instructions (46_timers.md; O35). LD_VX_DT is one register write; the two writes of a timer are
updates of `PC` and the Timer Unit, and one frame serves both. -/

namespace Sys2Proof.Machine

/-- What a write of `PC` and the Timer Unit leaves alone. -/
theorem frame_of_timers_update (s : State) (p : Word) (u : TimerUnit) :
    let t := { s with pc := p, timers := u }
    sameRegs s t ∧ sameIndex s t ∧ sameStack s t ∧ sameMemory s t ∧ sameDisplay s t ∧ sameControl s t :=
  ⟨fun _ => rfl, rfl, ⟨rfl, rfl⟩, fun _ => rfl, rfl, ⟨rfl, rfl, rfl⟩, rfl, ⟨rfl, rfl, rfl, rfl⟩, rfl⟩

/-- Settles O35: the read of `DT` has the frame of a register write, and each write of a timer replaces its own field of
the Timer Unit, the other timer and the accumulator kept. -/
theorem timerAccess : Obligations.TimerAccess := by
  intro s x
  refine ⟨?readDT, ?writeDT, ?writeST⟩
  case readDT => exact ⟨_, rfl, State.getV_setV_same _ x s.timers.dt, rfl, onlyRegs_setV s x _⟩
  case writeDT =>
    exact ⟨s.advancePC.setDT (s.getV x), rfl, rfl, rfl, rfl, rfl, frame_of_timers_update s _ _⟩
  case writeST =>
    exact ⟨s.advancePC.setST (s.getV x), rfl, rfl, rfl, rfl, rfl, frame_of_timers_update s _ _⟩

end Sys2Proof.Machine

/-! The sequencer (47_sequencer_scheduler.md; O6, O9, O50, O51, O54, O55) and the depths at which the stack faults
(60_exceptions.md R212; O16). No instruction is a fault or a refusal, so a step inside a frame is the instruction
decoded at `PC` and its charge; the charge is at least 1, so the budget bounds the steps of a frame. -/

namespace Sys2Proof.Machine

/-! ### Every state has a next state -/

/-- No instruction is a fault or a refusal: CALL and RET at the stack's ends too answer a state. -/
theorem exec_total (i : Instr) (s : State) : ∃ t, exec i s = .next t := by
  cases i
  case ret =>
    cases hp : s.advancePC.pop with
    | none => exact ⟨_, by rw [exec, execRet, hp]⟩
    | some p => exact ⟨_, by rw [exec, execRet, hp]⟩
  case call nnn =>
    cases hp : s.advancePC.push s.advancePC.pc with
    | none => exact ⟨_, by rw [exec, execCall, hp]⟩
    | some u => exact ⟨_, by rw [exec, execCall, hp]⟩
  all_goals exact ⟨_, rfl⟩

/-- The step of a legal word inside a frame. -/
theorem step_of_exec {s t : State} {i : Instr} (hr : s.runState = .running) (hb : 0 < s.budget)
    (hd : decodeWord s.fetchWord = .ok i) (he : exec i s = .next t) : step s = .next (t.chargeFor i) := by
  rw [step_inFrame s (s.inFrame_iff.2 ⟨hr, hb⟩), instructionStep, hd]
  simp only [he, chargeOutcome]

/-- Settles O51: inside a frame the word is legal or illegal, outside one a host transaction waits or none does. -/
theorem everyStateHasANextState : Obligations.EveryStateHasANextState := by
  intro s
  cases hf : s.inFrame with
  | true =>
    obtain ⟨hr, hb⟩ := s.inFrame_iff.1 hf
    cases hd : decodeWord s.fetchWord with
    | ok i =>
      obtain ⟨t, ht⟩ := exec_total i s
      exact ⟨_, step_of_exec hr hb hd ht⟩
    | error e => exact ⟨_, illegalWordStopsMachine s e hr hb hd⟩
  | false =>
    cases hi : s.inbox with
    | nil => exact ⟨s, step_of_inbox_nil hf hi⟩
    | cons tr rest => exact ⟨_, step_of_inbox_cons hf hi⟩

/-! ### The step inside a frame -/

/-- The fetch masks each of its two byte addresses (20_memory.md R52). -/
theorem State.fetchWord_eq (s : State) : s.fetchWord =
    wordOfBytes (Memory.read s.mem (s.pc.toNat % 4096)) (Memory.read s.mem ((s.pc.toNat + 1) % 4096)) := by
  rw [State.fetchWord, State.memRead, State.memRead, memAddress_eq, memAddress_add_one]

/-- Settles O6: `exec` answers some state, and `State.chargeFor` is the conditional charge stated. -/
theorem stepRunsDecodedInstruction : Obligations.StepRunsDecodedInstruction := by
  intro s i hr hb hd
  rw [← s.fetchWord_eq] at hd
  obtain ⟨t, ht⟩ := exec_total i s
  rw [step_of_exec hr hb hd ht, ht]
  rfl

/-- What the charge leaves alone: everything but the budget and the Timer Unit. -/
theorem frame_of_charge (s : State) (c : Nat) :
    let t := s.charge c
    sameRegs s t ∧ t.pc = s.pc ∧ sameIndex s t ∧ sameStack s t ∧ sameMemory s t ∧ sameDisplay s t
      ∧ t.runState = s.runState ∧ t.keyDest = s.keyDest ∧ sameDiag s t ∧ sameHostSide s t ∧ sameDraws s t :=
  ⟨fun _ => rfl, rfl, rfl, ⟨rfl, rfl⟩, fun _ => rfl, rfl, rfl, rfl, rfl, ⟨rfl, rfl, rfl, rfl⟩, rfl⟩

theorem costOf_eq_of_mnemonic {i j : Instr} (h : j.mnemonic = i.mnemonic) : costOf j = costOf i := by
  rw [costOf, costOf, h]

/-- Settles O9: the state reached is the charge of the state that `exec` answers. -/
theorem stepChargesCost : Obligations.StepChargesCost := by
  intro s t i hr hb hd he ht
  have hstep : step s = .next (t.charge (costOf i)) := by
    rw [step_of_exec hr hb hd he, State.chargeFor_running t i ht]
  obtain ⟨hregs, hpc, hi, hstack, hmem, hdisplay, hrun, hdest, hdiag, hhost, hdraws⟩ := frame_of_charge t (costOf i)
  exact ⟨_, hstep, costOf_pos i, fun _ => costOf_eq_of_mnemonic, t.charge_budget _, t.charge_timers _,
    hregs, hpc, hi, hstack, hmem, hdisplay, hrun.trans ht, hdest, hdiag, hhost, hdraws⟩

theorem chargeFor_sameHostSide (s : State) (i : Instr) : sameHostSide s (s.chargeFor i) := by
  by_cases hr : s.runState = .running
  · rw [State.chargeFor_running s i hr]
    exact ⟨rfl, rfl, rfl, rfl⟩
  · rw [State.chargeFor_not_running s i hr]
    exact ⟨rfl, rfl, rfl, rfl⟩

/-- A step inside a frame is charged and stays RUNNING, or is LD_VX_K and waits, or ends in a fatal condition (R192). -/
theorem step_inFrame_cases {s s' : State} (hf : s.inFrame = true) (h : step s = .next s') :
    (s'.runState = .running ∧ s'.budget < s.budget ∧ sameDiag s s')
    ∨ (s'.runState = .awaitingKey ∧ (∃ x, decodeWord s.fetchWord = .ok (.ldVxK x)) ∧ sameDiag s s')
    ∨ ∃ cause w, s' = s.advancePC.fatal cause s.pc w := by
  obtain ⟨hr, -⟩ := s.inFrame_iff.1 hf
  obtain ⟨-, i, t, hd, hexec, rfl⟩ | ⟨-, -, rfl⟩ | ⟨hout, -⟩ | ⟨hout, -⟩ := step_cases h
  · obtain ⟨⟨hrun, -, hbudget⟩, hdiag, -⟩ | ⟨x, rfl, rfl⟩ | ⟨cause, w, rfl⟩ := exec_control_cases i hexec
    · have ht : t.runState = .running := hrun.trans hr
      have hcost := costOf_pos i
      rw [State.chargeFor_running t i ht, State.charge_runState, State.charge_budget, hbudget]
      exact .inl ⟨ht, by omega, hdiag⟩
    · rw [State.chargeFor_not_running _ _ (by simp)]
      exact .inr (.inl ⟨s.advancePC.awaitKey_runState x, ⟨x, hd⟩, s.advancePC.awaitKey_diag x⟩)
    · rw [State.chargeFor_not_running _ _ (by simp)]
      exact .inr (.inr ⟨cause, w, rfl⟩)
  · exact .inr (.inr ⟨_, _, rfl⟩)
  · simp [hf] at hout
  · simp [hf] at hout

/-- A step inside a frame takes no host transaction. -/
theorem step_inFrame_sameHostSide {s s' : State} (hf : s.inFrame = true) (h : step s = .next s') :
    sameHostSide s s' := by
  obtain ⟨-, i, t, -, hexec, rfl⟩ | ⟨-, -, rfl⟩ | ⟨hout, -⟩ | ⟨hout, -⟩ := step_cases h
  · exact sameHostSide_trans (exec_sameHostSide i hexec) (chargeFor_sameHostSide t i)
  · exact ⟨rfl, rfl, rfl, rfl⟩
  · simp [hf] at hout
  · simp [hf] at hout

/-- Settles O54: a fatal condition writes `PC`, the run state and the diagnostic. -/
theorem stepHasThreeOutcomes : Obligations.StepHasThreeOutcomes := by
  intro s s' hr hb h
  have hf : s.inFrame = true := s.inFrame_iff.2 ⟨hr, hb⟩
  refine ⟨step_inFrame_sameHostSide hf h, ?_⟩
  obtain ⟨hrun, -⟩ | ⟨hwait, hinstr, -⟩ | ⟨cause, w, rfl⟩ := step_inFrame_cases hf h
  · exact .inl hrun
  · exact .inr (.inl ⟨hwait, hinstr⟩)
  · exact .inr (.inr ⟨rfl, rfl, rfl⟩)

/-! ### The end of a frame -/

theorem run_succ {s s' : State} (h : step s = .next s') (k : Nat) :
    Host.Core.run Sys2Proof.core (k + 1) s = Host.Core.run Sys2Proof.core k s' := by
  have hcore : Sys2Proof.core.step s = .next s' := h
  simp only [Host.Core.run, hcore]

/-- Settles O50, by induction on the budget: a step either ends the frame or has lowered the budget. -/
theorem everyFrameEnds : Obligations.EveryFrameEnds := by
  intro s hr hb
  induction hn : s.budget.toNat using Nat.strong_induction_on generalizing s with
  | _ n ih =>
    have hf : s.inFrame = true := s.inFrame_iff.2 ⟨hr, hb⟩
    obtain ⟨s', h⟩ := everyStateHasANextState s
    obtain ⟨-, -, hinbox, -⟩ := step_inFrame_sameHostSide hf h
    by_cases hgo : s'.runState = .running ∧ 0 < s'.budget
    · obtain ⟨hr', hb'⟩ := hgo
      have hless : s'.budget < s.budget := by
        obtain ⟨-, hless, -⟩ | ⟨hwait, -⟩ | ⟨cause, w, rfl⟩ := step_inFrame_cases hf h
        · exact hless
        · simp [hr'] at hwait
        · simp at hr'
      obtain ⟨k, t, hk, hle, hrun, hend, hrest⟩ := ih s'.budget.toNat (by omega) s' hr' hb' rfl
      exact ⟨k + 1, t, by omega, by push_cast; omega, (run_succ h k).trans hrun, hend, hrest.trans hinbox⟩
    · exact ⟨1, s', le_rfl, by omega, run_succ h 0, hgo, hinbox⟩

/-! ### Which instruction changes the run state -/

/-- The two stack conditions of R210: RET at depth 0 and CALL at depth 16. -/
def stackFault (i : Instr) (s : State) : Prop :=
  (i = .ret ∧ s.sp.val = 0) ∨ (∃ nnn, i = .call nnn) ∧ s.sp.val = 16

/-- LD_VX_K waits, a stack condition is fatal, and every other instruction keeps the run state and the diagnostic. -/
theorem exec_runState_cases (i : Instr) {s t : State} (h : exec i s = .next t) :
    ((∃ x, i = .ldVxK x) ∧ t.runState = .awaitingKey ∧ sameDiag s t)
    ∨ (stackFault i s ∧ t.runState = .stopped)
    ∨ ((¬∃ x, i = .ldVxK x) ∧ ¬stackFault i s ∧ t.runState = s.runState ∧ sameDiag s t) := by
  cases i
  case ldVxK x =>
    obtain rfl := Host.Outcome.next.inj h
    exact .inl ⟨⟨x, rfl⟩, s.advancePC.awaitKey_runState x, s.advancePC.awaitKey_diag x⟩
  case ret =>
    obtain ⟨hd, rfl⟩ | ⟨hd, rfl⟩ := execRet_cases h
    · exact .inr (.inr ⟨by simp, by simp [stackFault, hd.ne'], rfl, rfl⟩)
    · exact .inr (.inl ⟨.inl ⟨rfl, hd⟩, rfl⟩)
  case call nnn =>
    obtain ⟨hd, rfl⟩ | ⟨hd, rfl⟩ := execCall_cases h
    · exact .inr (.inr ⟨by simp, by simp [stackFault, hd.ne], rfl, rfl⟩)
    · exact .inr (.inl ⟨.inr ⟨⟨nnn, rfl⟩, hd⟩, rfl⟩)
  case drw x y n =>
    obtain ⟨_, _, rfl⟩ := execDrw_frame h
    exact .inr (.inr ⟨by simp, by simp [stackFault], rfl, rfl⟩)
  case ldMemVx x =>
    obtain ⟨_, _, rfl⟩ := execLdMemVx_frame h
    exact .inr (.inr ⟨by simp, by simp [stackFault], rfl, rfl⟩)
  case ldVxMem x =>
    obtain ⟨_, _, rfl⟩ := execLdVxMem_frame h
    exact .inr (.inr ⟨by simp, by simp [stackFault], rfl, rfl⟩)
  all_goals
    obtain rfl := Host.Outcome.next.inj h
    exact .inr (.inr (by simp [stackFault, sameDiag, State.storeDigits]))

/-- Settles O55: the three cases exclude each other, and each run state reached belongs to one. -/
theorem runStateChangedByThreeInstructions : Obligations.RunStateChangedByThreeInstructions := by
  intro i s t hr h
  have hnotBoth : (∃ x, i = .ldVxK x) → ¬stackFault i s := by
    rintro ⟨x, rfl⟩
    simp [stackFault]
  obtain ⟨hwaits, hrun, hdiag⟩ | ⟨hfault, hrun⟩ | ⟨hno, hnoFault, hrun, hdiag⟩ := exec_runState_cases i h
  · rw [hrun]
    exact ⟨iff_of_true rfl hwaits, iff_of_false (by simp) (hnotBoth hwaits), by simp, fun _ => hdiag⟩
  · rw [hrun]
    exact ⟨iff_of_false (by simp) fun hwaits => hnotBoth hwaits hfault, iff_of_true rfl hfault, by simp,
      fun hne => absurd rfl hne⟩
  · rw [hrun, hr]
    exact ⟨iff_of_false (by simp) hno, iff_of_false (by simp) hnoFault, by simp, fun _ => hdiag⟩

/-- Settles O16, on either side of each depth limit. -/
theorem stackDepthDecidesFatal : Obligations.StackDepthDecidesFatal := by
  intro s nnn hr
  constructor
  · obtain ⟨t, h⟩ := exec_total (.call nnn) s
    refine ⟨t, h, ?_⟩
    obtain ⟨hd, rfl⟩ | ⟨hd, rfl⟩ := execCall_cases h
    · exact ⟨by simp [hr, hd.ne], fun hfull => absurd hfull hd.ne, fun _ => ⟨hr, rfl⟩⟩
    · exact ⟨iff_of_true rfl hd, fun _ => ⟨rfl, rfl, rfl⟩, fun hlt => absurd hd hlt.ne⟩
  · obtain ⟨t, h⟩ := exec_total .ret s
    refine ⟨t, h, ?_⟩
    obtain ⟨hd, rfl⟩ | ⟨hd, rfl⟩ := execRet_cases h
    · exact ⟨by simp [hr, hd.ne'], fun hempty => absurd hempty hd.ne', fun _ => ⟨hr, Nat.sub_add_cancel hd⟩⟩
    · exact ⟨iff_of_true rfl hd, fun _ => ⟨rfl, rfl, rfl⟩, fun hpos => absurd hd hpos.ne'⟩

end Sys2Proof.Machine

/-! The Timer Unit over time (60_exceptions.md R225, R226; O36 to O38). Between calls the accumulator lies in 0..16666, so
one call ticks the one number of times that brings it back there, and the numbers of a list of calls add up. -/

namespace Sys2Proof.Machine

/-- A timer at 0 stays 0; written as in R225. -/
theorem countDown_toNat_eq_ite (b : Byte) : (countDown b).toNat = if 0 < b.toNat then b.toNat - 1 else 0 := by
  rw [countDown_toNat]
  split <;> omega

/-- Settles O36: a tick counts each timer down on its own. -/
theorem tickCountsDown : Obligations.TickCountsDown := fun t =>
  ⟨countDown_toNat_eq_ite t.dt, countDown_toNat_eq_ite t.st, rfl⟩

/-- `u` is `t` aged by `d` microseconds with `n` ticks, the accumulator back in its range. -/
structure TimerUnit.AgedBy (d n : Nat) (t u : TimerUnit) : Prop where
  acc : u.acc = t.acc - d + 16667 * n
  acc_nonneg : 0 ≤ u.acc
  acc_le : u.acc ≤ 16666
  dt : u.dt.toNat = t.dt.toNat - n
  st : u.st.toNat = t.st.toNat - n

/-- One call of `TimerAdvance`. -/
theorem TimerUnit.exists_agedBy_advance (t : TimerUnit) (d : Nat) (hle : t.acc ≤ 16666) :
    ∃ n, TimerUnit.AgedBy d n t (t.advance d) := by
  obtain ⟨n, hacc, -, -, hdt, hst⟩ := t.advance_spec d
  obtain ⟨hlow, hhigh⟩ := t.advance_acc_range d (Int.natCast_nonneg d) hle
  exact ⟨n, hacc, hlow, hhigh, hdt, hst⟩

/-- Time and ticks of two stretches add up. -/
theorem TimerUnit.AgedBy.trans {d e m n : Nat} {t u w : TimerUnit} (h : TimerUnit.AgedBy d m t u)
    (g : TimerUnit.AgedBy e n u w) : TimerUnit.AgedBy (d + e) (m + n) t w where
  acc := by
    rw [g.acc, h.acc]
    push_cast
    ring
  acc_nonneg := g.acc_nonneg
  acc_le := g.acc_le
  dt := by rw [g.dt, h.dt, Nat.sub_sub]
  st := by rw [g.st, h.st, Nat.sub_sub]

/-- A list of calls is one stretch of their total time. -/
theorem TimerUnit.exists_agedBy_foldl (ds : List Nat) (t : TimerUnit) (hlow : 0 ≤ t.acc) (hhigh : t.acc ≤ 16666) :
    ∃ n, TimerUnit.AgedBy ds.sum n t (ds.foldl (fun u (d : Nat) => u.advance (d : Int)) t) := by
  induction ds generalizing t with
  | nil => exact ⟨0, by simp, hlow, hhigh, rfl, rfl⟩
  | cons d ds ih =>
    obtain ⟨m, hfirst⟩ := t.exists_agedBy_advance d hhigh
    obtain ⟨n, hrest⟩ := ih (t.advance d) hfirst.acc_nonneg hfirst.acc_le
    rw [List.sum_cons, List.foldl_cons]
    exact ⟨m + n, hfirst.trans hrest⟩

/-- From `acc = 0` the range leaves one number of ticks, the time divided by the period and rounded up. -/
theorem TimerUnit.AgedBy.ticks_of_acc_zero {d n : Nat} {t u : TimerUnit} (h : TimerUnit.AgedBy d n t u)
    (hzero : t.acc = 0) : n = (d + 16666) / 16667 := by
  obtain ⟨hacc, hlow, hhigh, -, -⟩ := h
  omega

/-- Settles O37, by the total of the list of calls. -/
theorem ticksDependOnTotalTimeOnly : Obligations.TicksDependOnTotalTimeOnly := by
  intro ds t hzero
  obtain ⟨n, hn⟩ := TimerUnit.exists_agedBy_foldl ds t hzero.ge (by omega)
  obtain rfl := hn.ticks_of_acc_zero hzero
  refine ⟨?_, hn.dt, hn.st⟩
  rw [hn.acc, hzero]
  push_cast
  ring

/-! ### A frame between two steps -/

theorem State.inFrame_eq_false_of_not_running {s : State} (h : s.runState ≠ .running) : s.inFrame = false :=
  Bool.eq_false_iff.2 fun hf => h (s.inFrame_iff.1 hf).1

theorem State.openFrame_running {s : State} (h : s.runState = .running) (elapsed : Nat) :
    s.openFrame elapsed = { s with budget := s.budget + elapsed * (s.speed.val + 1) } := by
  rw [State.openFrame, if_pos h, State.grant]

theorem State.openFrame_not_running {s : State} (h : s.runState ≠ .running) (elapsed : Nat) :
    s.openFrame elapsed = { s with timers := s.timers.advance (elapsed * (s.speed.val + 1)) } := by
  rw [State.openFrame, if_neg h, State.timerAdvance, State.grant]

/-- Settles O43, by the two cases of the run state. -/
theorem frameGrant : Obligations.FrameGrant := fun _ elapsed =>
  ⟨fun h => State.openFrame_running h elapsed, fun h => State.openFrame_not_running h elapsed⟩

/-- Settles O38: one period brings the accumulator back into its range by one tick only. -/
theorem oneTickPerFrameWhenNotRunning : Obligations.OneTickPerFrameWhenNotRunning := by
  intro s rest hr hspeed ⟨hlow, hhigh⟩ hinbox
  have hgrant : ((16667 : Nat) * (s.speed.val + 1) : Int) = (16667 : Nat) := by simp [hspeed]
  have hstep : step s = .next { s with inbox := rest, timers := s.timers.advance (16667 : Nat) } := by
    rw [step_of_inbox_cons (State.inFrame_eq_false_of_not_running hr) hinbox, State.applyTransaction,
      State.openFrame_not_running (s := { s with inbox := rest }) hr, hgrant]
  obtain ⟨n, hn⟩ := s.timers.exists_agedBy_advance 16667 hhigh
  obtain rfl : n = 1 := by
    obtain ⟨hacc, hlow', hhigh', -, -⟩ := hn
    omega
  exact ⟨_, hstep, by rw [hn.acc]; simp, hn.dt, hn.st, rfl, rfl, rfl, fun _ => rfl, fun _ => rfl, rfl⟩

end Sys2Proof.Machine

/-! The host's transactions one by one (60_exceptions.md R219, R221; 47_sequencer_scheduler.md R197; 70_reset_and_hazards.md
R241 to R243; O39 to O42, O44). -/

namespace Sys2Proof.Machine

/-! ### SPEED -/

/-- Settles O44: `speed` is at most 7, so the minimum with 7 and the subtraction at 0 saturate. -/
theorem speedSaturates : Obligations.SpeedSaturates := by
  intro s
  have hle := s.speed.isLt
  refine ⟨?up, ?down, fun c => by cases c <;> rfl⟩
  case up =>
    simp only [State.changeSpeed]
    split <;> omega
  case down =>
    simp only [State.changeSpeed]
    split <;> omega

/-! ### KEY -/

theorem State.completeKeyWait_waiting {s : State} (h : s.runState = .awaitingKey) (k : Nibble) :
    s.completeKeyWait k = { s.setV s.keyDest (k.setWidth 8) with runState := .running } := by
  rw [State.completeKeyWait, if_pos h]

theorem State.completeKeyWait_not_waiting {s : State} (h : s.runState ≠ .awaitingKey) (k : Nibble) :
    s.completeKeyWait k = s := by
  rw [State.completeKeyWait, if_neg h]

theorem State.keyEvent_out_of_range (s : State) {k : Int} (h : ¬(0 ≤ k ∧ k ≤ 15)) (ev : KeyEvent) :
    s.keyEvent k ev = s := by
  simp only [State.keyEvent, if_neg h]

/-- A key number in range is that of one key. -/
theorem exists_key_of_range {k : Int} (h : 0 ≤ k ∧ k ≤ 15) : ∃ j : Nibble, k = (j.toNat : Int) := by
  refine ⟨BitVec.ofNat 4 k.toNat, ?_⟩
  rw [toNat_ofNat_of_lt (by omega)]
  omega

theorem ofInt_key (j : Nibble) : BitVec.ofInt 4 (j.toNat : Int) = j := by simp

theorem key_in_range (j : Nibble) : 0 ≤ (j.toNat : Int) ∧ (j.toNat : Int) ≤ 15 := by
  have := j.isLt
  omega

theorem State.keyEvent_pressed (s : State) (j : Nibble) : s.keyEvent (j.toNat : Int) .pressed = s.setKey j true := by
  simp only [State.keyEvent, if_pos (key_in_range j), ofInt_key]

theorem State.keyEvent_released (s : State) (j : Nibble) :
    s.keyEvent (j.toNat : Int) .released = (s.setKey j false).completeKeyWait j := by
  simp only [State.keyEvent, if_pos (key_in_range j), ofInt_key]

/-- The release that ends a key wait. -/
theorem State.keyEvent_released_waiting {s : State} (h : s.runState = .awaitingKey) (j : Nibble) :
    s.keyEvent (j.toNat : Int) .released
      = { (s.setKey j false).setV s.keyDest (j.setWidth 8) with runState := .running } := by
  rw [State.keyEvent_released, State.completeKeyWait_waiting (s := s.setKey j false) h]
  rfl

theorem State.keyEvent_released_not_waiting {s : State} (h : s.runState ≠ .awaitingKey) (j : Nibble) :
    s.keyEvent (j.toNat : Int) .released = s.setKey j false := by
  rw [State.keyEvent_released, State.completeKeyWait_not_waiting (s := s.setKey j false) h]

/-- The register that `key_dest` names holds the number of the key released. -/
theorem getV_keyDest_of_release (s : State) (j : Nibble) :
    (((s.setKey j false).setV s.keyDest (j.setWidth 8)).getV s.keyDest).toNat = j.toNat := by
  rw [State.getV_setV_same, BitVec.toNat_setWidth_of_le (by decide)]

theorem getV_other_of_release (s : State) (j : Nibble) {r : Nibble} (h : r ≠ s.keyDest) :
    ((s.setKey j false).setV s.keyDest (j.setWidth 8)).getV r = s.getV r := by
  rw [State.getV_setV_other _ _ h, State.setKey_getV]

/-- The end of a key wait writes a register and the run state, no latch. -/
@[simp] theorem State.completeKeyWait_getKey (s : State) (k c : Nibble) :
    (s.completeKeyWait k).getKey c = s.getKey c := by
  rw [State.completeKeyWait]
  split <;> rfl

/-- A KEY of key `j` sets or clears latch `j` and no other. -/
theorem State.getKey_keyEvent (s : State) (j c : Nibble) (ev : KeyEvent) :
    (s.keyEvent (j.toNat : Int) ev).getKey c = if c = j then decide (ev = .pressed) else s.getKey c := by
  cases ev with
  | pressed => rw [State.keyEvent_pressed, State.getKey_setKey]; rfl
  | released => rw [State.keyEvent_released, State.completeKeyWait_getKey, State.getKey_setKey]; rfl

/-- A KEY that ends no wait writes the latches only. -/
theorem State.keyEvent_writes_keys (s : State) (j : Nibble) {ev : KeyEvent}
    (h : ev = .pressed ∨ s.runState ≠ .awaitingKey) :
    ∃ latches, s.keyEvent (j.toNat : Int) ev = { s with keys := latches } := by
  cases ev with
  | pressed => exact ⟨_, s.keyEvent_pressed j⟩
  | released => exact ⟨_, State.keyEvent_released_not_waiting (h.resolve_left (by simp)) j⟩

/-- Settles O42: the latches of every KEY first, then what a KEY that ends no wait and one that does write beside
them. -/
theorem keyTransaction : Obligations.KeyTransaction := by
  intro s k ev
  refine ⟨fun hout => s.keyEvent_out_of_range hout ev, ?_⟩
  rintro j rfl
  refine ⟨?latch, fun c hc => ?others, fun hno => ?noWait, ?wait⟩
  case latch => rw [State.getKey_keyEvent, if_pos rfl, decide_eq_true_eq]
  case others => rw [State.getKey_keyEvent, if_neg hc]
  case noWait =>
    obtain ⟨latches, hkeys⟩ := s.keyEvent_writes_keys j hno
    rw [hkeys]
  case wait =>
    rintro rfl hwait
    rw [State.keyEvent_released_waiting hwait]
    exact ⟨rfl, getV_keyDest_of_release s j, fun _ hr => getV_other_of_release s j hr, rfl⟩

/-! ### LOAD -/

theorem State.with_runState_eq {s : State} {r : RunState} (h : s.runState = r) : { s with runState := r } = s := by
  subst h
  rfl

/-- Settles O41, by the four run states. -/
theorem oversizedLoadRejected : Obligations.OversizedLoadRejected := by
  intro s prog hlong
  rw [State.load, if_neg (by simpa using hlong)]
  cases hr : s.runState with
  | init =>
    rw [if_neg (by simp)]
    exact (State.with_runState_eq hr).symm
  | running => rw [if_pos (.inl rfl)]
  | awaitingKey => rw [if_pos (.inr rfl)]
  | stopped =>
    rw [if_neg (by simp)]
    exact (State.with_runState_eq hr).symm

theorem State.load_mem (s : State) {prog : List Byte} (h : prog.length ≤ Config.progMax) :
    (s.load prog).mem = loadedMemory s.font prog := by
  rw [State.load_of_le s prog h]

theorem State.load_pc (s : State) {prog : List Byte} (h : prog.length ≤ Config.progMax) :
    (s.load prog).pc = 0x200 := by
  rw [State.load_of_le s prog h]
  rfl

theorem State.load_runState (s : State) {prog : List Byte} (h : prog.length ≤ Config.progMax) :
    (s.load prog).runState = .running := by
  rw [State.load_of_le s prog h]
  rfl

theorem State.load_inbox (s : State) {prog : List Byte} (h : prog.length ≤ Config.progMax) :
    (s.load prog).inbox = s.inbox := by
  rw [State.load_of_le s prog h]

theorem read_loadedMemory_font (font : Vector Byte 80) (prog : List Byte) (j : Fin 80) :
    Memory.read (loadedMemory font prog) (0x050 + j.val) = font[j.val] := by
  rw [read_loadedMemory, if_neg (by omega), if_pos (by omega), Nat.add_sub_cancel_left,
    List.getD_eq_getElem _ _ (by simp)]
  exact Vector.getElem_toList _

theorem read_loadedMemory_prog (font : Vector Byte 80) {prog : List Byte} {j : Nat} (h : j < prog.length) :
    Memory.read (loadedMemory font prog) (0x200 + j) = prog.getD j 0 := by
  rw [read_loadedMemory, if_pos (by omega), Nat.add_sub_cancel_left]

theorem read_loadedMemory_other (font : Vector Byte 80) (prog : List Byte) {a : Nat}
    (hfont : ¬(0x050 ≤ a ∧ a < 0x0A0)) (hprog : ¬(0x200 ≤ a ∧ a < 0x200 + prog.length)) :
    Memory.read (loadedMemory font prog) a = 0 := by
  rw [read_loadedMemory, if_neg hprog, if_neg hfont]

/-- Settles O39, element by element. -/
theorem loadResetsEverything : Obligations.LoadResetsEverything := by
  intro s prog hfits
  rw [State.load_mem s hfits]
  exact ⟨read_loadedMemory_font s.font prog, fun _ => read_loadedMemory_prog s.font,
    fun _ _ => read_loadedMemory_other s.font prog, s.load_zeroed hfits, s.load_pc hfits, s.load_runState hfits,
    s.load_font prog, by rw [State.load_of_le s prog hfits], s.load_inbox hfits⟩

/-- A LOAD that does not fit leaves the machine outside RUNNING. -/
theorem State.load_runState_of_gt (s : State) {prog : List Byte} (h : 3584 < prog.length) :
    (s.load prog).runState ≠ .running := by
  rw [oversizedLoadRejected s prog h]
  cases s.runState <;> simp

/-- Settles O40, from O39 and O41 at the boundary. -/
theorem loadAcceptsExactlyTheSpace : Obligations.LoadAcceptsExactlyTheSpace := by
  intro s prog
  refine ⟨fun hfits => ?_, fun hlong => s.load_runState_of_gt (by omega)⟩
  obtain ⟨hfont, hprog, -, -, hpc, hrun, -⟩ := loadResetsEverything s prog hfits
  exact ⟨hrun, hpc, hfont, hprog⟩

end Sys2Proof.Machine

/-! The step outside a frame (47_sequencer_scheduler.md R190; 60_exceptions.md R215, R219; O52, O53). A LOAD that fits
replaces the Machine State; what any other turn of the host may change is one structure, which each transaction meets. -/

namespace Sys2Proof.Machine

/-- The step from `s` to `t` took a LOAD that fits, the oldest transaction waiting. -/
def tookLoad (s t : State) : Prop :=
  ∃ prog rest, s.inbox = .load prog :: rest ∧ prog.length ≤ 3584 ∧ t.inbox = rest ∧ t.runState = .running

/-- What no transaction but such a LOAD writes. -/
structure HostFrame (s t : State) : Prop where
  pc : t.pc = s.pc
  index : sameIndex s t
  stack : sameStack s t
  memory : sameMemory s t
  display : sameDisplay s t
  draws : sameDraws s t
  keyDest : t.keyDest = s.keyDest
  diag : sameDiag s t

theorem HostFrame.of_update (s : State) (regs : Vector Byte 16) (timers : TimerUnit) (latches : Vector Bool 16)
    (run : RunState) (budget : Int) (speed : Fin 8) (waiting : List Transaction) :
    HostFrame s { s with
      v := regs, timers := timers, keys := latches, runState := run, budget := budget, speed := speed,
      inbox := waiting } :=
  ⟨rfl, rfl, ⟨rfl, rfl⟩, fun _ => rfl, rfl, rfl, rfl, rfl⟩

/-- A turn of the host that takes no such LOAD: the budget changes in RUNNING only, the Timer Unit by a FRAME only, a
register by the release that ends a key wait only, and STOPPED is not left. -/
structure HostTurn (s t : State) : Prop extends HostFrame s t where
  budget : s.runState ≠ .running → t.budget = s.budget
  timers : sameTimers s t ∨ ∃ elapsed rest, s.inbox = .frame elapsed :: rest
    ∧ t.timers = s.timers.advance (elapsed * (s.speed.val + 1))
  regs : sameRegs s t ∨ (s.runState = .awaitingKey ∧ t.runState = .running
    ∧ sameRegsExcept (fun r => r = s.keyDest) s t
    ∧ ∃ (j : Nibble) (rest : List Transaction), s.inbox = .key (j.toNat : Int) .released :: rest
        ∧ (t.getV s.keyDest).toNat = j.toNat)
  stopped : s.runState = .stopped → t.runState = .stopped

/-- A turn that writes only the latches, the speed and the waiting transactions. -/
theorem HostTurn.of_host_side (s : State) (latches : Vector Bool 16) (speed : Fin 8) (waiting : List Transaction) :
    HostTurn s { s with keys := latches, speed := speed, inbox := waiting } where
  toHostFrame := HostFrame.of_update s s.v s.timers latches s.runState s.budget speed waiting
  budget _ := rfl
  timers := .inl rfl
  regs := .inl fun _ => rfl
  stopped := id

/-- A LOAD that does not fit writes the run state only, and only to STOPPED. -/
theorem HostTurn.of_load (s : State) (rest : List Transaction) {prog : List Byte}
    (h : ¬prog.length ≤ Config.progMax) : HostTurn s (State.load { s with inbox := rest } prog) := by
  obtain hl | hl := State.load_of_gt { s with inbox := rest } prog h <;> rw [hl]
  · exact HostTurn.of_host_side s s.keys s.speed rest
  · exact {
      toHostFrame := HostFrame.of_update s s.v s.timers s.keys .stopped s.budget s.speed rest
      budget := fun _ => rfl
      timers := .inl rfl
      regs := .inl fun _ => rfl
      stopped := fun _ => rfl }

/-- A KEY of a key 0 to 15: a release in AWAITING_KEY is the only one that writes more than the latches. -/
theorem HostTurn.of_key {s : State} {rest : List Transaction} {j : Nibble} {ev : KeyEvent}
    (hi : s.inbox = .key (j.toNat : Int) ev :: rest) :
    HostTurn s (State.keyEvent { s with inbox := rest } (j.toNat : Int) ev) := by
  by_cases hno : ev = .pressed ∨ s.runState ≠ .awaitingKey
  · obtain ⟨latches, hkeys⟩ := State.keyEvent_writes_keys { s with inbox := rest } j hno
    rw [hkeys]
    exact HostTurn.of_host_side s latches s.speed rest
  · obtain ⟨hev, hwait⟩ : ev ≠ .pressed ∧ s.runState = .awaitingKey := by simpa using hno
    obtain rfl : ev = .released := by
      cases ev with
      | pressed => exact absurd rfl hev
      | released => rfl
    rw [State.keyEvent_released_waiting (s := { s with inbox := rest }) hwait]
    exact {
      toHostFrame := HostFrame.of_update s _ s.timers _ .running s.budget s.speed rest
      budget := fun _ => rfl
      timers := .inl rfl
      regs := .inr ⟨hwait, rfl, fun _ hr => getV_other_of_release s j hr, j, rest, hi, getV_keyDest_of_release s j⟩
      stopped := by simp [hwait] }

/-- A FRAME writes the budget in RUNNING and the Timer Unit otherwise. -/
theorem HostTurn.of_frame {s : State} {rest : List Transaction} {elapsed : Nat}
    (hi : s.inbox = .frame elapsed :: rest) : HostTurn s (State.openFrame { s with inbox := rest } elapsed) := by
  by_cases hr : s.runState = .running
  · rw [State.openFrame_running (s := { s with inbox := rest }) hr]
    exact {
      toHostFrame := HostFrame.of_update s s.v s.timers s.keys s.runState _ s.speed rest
      budget := fun hne => absurd hr hne
      timers := .inl rfl
      regs := .inl fun _ => rfl
      stopped := id }
  · rw [State.openFrame_not_running (s := { s with inbox := rest }) hr]
    exact {
      toHostFrame := HostFrame.of_update s s.v _ s.keys s.runState s.budget s.speed rest
      budget := fun _ => rfl
      timers := .inr ⟨elapsed, rest, hi, rfl⟩
      regs := .inl fun _ => rfl
      stopped := id }

theorem HostTurn.of_speed (s : State) (rest : List Transaction) (change : SpeedChange) :
    HostTurn s (State.changeSpeed { s with inbox := rest } change) := by
  cases change <;> exact HostTurn.of_host_side s s.keys _ rest

/-- A step outside a frame takes a LOAD that fits, or is a turn of the host that changes no more than `HostTurn`
says. -/
theorem step_between_frames {s s' : State} (hf : s.inFrame = false) (h : step s = .next s') :
    tookLoad s s' ∨ HostTurn s s' := by
  obtain ⟨hin, -⟩ | ⟨hin, -⟩ | ⟨-, -, rfl⟩ | ⟨-, tr, rest, hi, rfl⟩ := step_cases h
  · simp [hf] at hin
  · simp [hf] at hin
  · exact .inr (HostTurn.of_host_side s' s'.keys s'.speed s'.inbox)
  · cases tr with
    | load prog =>
      by_cases hfits : prog.length ≤ Config.progMax
      · exact .inl ⟨prog, rest, hi, hfits, State.load_inbox _ hfits, State.load_runState _ hfits⟩
      · exact .inr (HostTurn.of_load s rest hfits)
    | key k ev =>
      by_cases hk : 0 ≤ k ∧ k ≤ 15
      · obtain ⟨j, rfl⟩ := exists_key_of_range hk
        exact .inr (HostTurn.of_key hi)
      · rw [State.applyTransaction, State.keyEvent_out_of_range _ hk]
        exact .inr (HostTurn.of_host_side s s.keys s.speed rest)
    | frame elapsed => exact .inr (HostTurn.of_frame hi)
    | speed change => exact .inr (HostTurn.of_speed s rest change)

/-- Settles O53: a machine that is not RUNNING is outside a frame. -/
theorem onlyRunningExecutes : Obligations.OnlyRunningExecutes := by
  intro s s' hr h
  obtain hload | ht := step_between_frames (State.inFrame_eq_false_of_not_running hr) h
  · exact .inl hload
  · exact .inr ⟨ht.pc, ht.index, ht.stack, ht.memory, ht.display, ht.draws, ht.keyDest, ht.budget hr, ht.timers,
      ht.regs⟩

/-- Settles O52: outside a frame the diagnostic changes by a LOAD only, and inside one by a fatal condition only. -/
theorem stoppedUntilLoad : Obligations.StoppedUntilLoad := by
  intro s s' h
  refine ⟨fun hstop => ?_, fun hdiag => ?_⟩
  · obtain hload | ht := step_between_frames (State.inFrame_eq_false_of_not_running (by simp [hstop])) h
    · exact .inl hload
    · have hregs : sameRegs s s' := ht.regs.resolve_right fun hwait => by simp [hstop] at hwait
      exact .inr ⟨ht.stopped hstop, ht.diag, ht.pc, hregs, ht.index, ht.stack, ht.memory, ht.display, ht.draws⟩
  · cases hf : s.inFrame with
    | true =>
      obtain ⟨-, -, hsame⟩ | ⟨-, -, hsame⟩ | ⟨cause, w, rfl⟩ := step_inFrame_cases hf h
      · exact absurd hsame hdiag
      · exact absurd hsame hdiag
      · exact .inl ⟨(s.inFrame_iff.1 hf).1, rfl⟩
    | false =>
      obtain hload | ht := step_between_frames hf h
      · exact .inr hload
      · exact absurd ht.diag hdiag

end Sys2Proof.Machine

/-! The canonical form of memory is one per contents (O48): its cells are the addresses that do not read as unlisted, and
rising order leaves one list of them. -/

namespace Sys2Proof.Machine

/-- A byte that is not the unlisted one is listed. -/
theorem Memory.mem_of_read_ne_unlisted {m : Memory} {a : Nat} (h : Memory.read m a ≠ unlistedByte a) :
    (a, Memory.read m a) ∈ m := by
  induction m with
  | nil => exact absurd rfl h
  | cons c rest ih =>
    obtain ⟨k, b⟩ := c
    by_cases hk : k = a
    · simp [Memory.read, hk]
    · simp only [Memory.read, if_neg hk] at h ⊢
      exact List.mem_cons_of_mem _ (ih h)

/-- Among cells of rising address each is the one its address reads. -/
theorem Memory.read_of_mem {m : Memory} (hm : m.Pairwise fun c d => c.1 < d.1) {c : Host.Cell} (hc : c ∈ m) :
    Memory.read m c.1 = c.2 := by
  induction m with
  | nil => cases hc
  | cons d rest ih =>
    obtain ⟨hhead, hrest⟩ := List.pairwise_cons.1 hm
    obtain rfl | hc := List.mem_cons.1 hc
    · exact if_pos rfl
    · exact (if_neg (hhead c hc).ne).trans (ih hrest hc)

/-- The cells of a canonical memory, told by its reads. -/
theorem Memory.mem_iff_read {m : Memory} (hm : Memory.wf m) (c : Host.Cell) :
    c ∈ m ↔ Memory.read m c.1 = c.2 ∧ c.2 ≠ unlistedByte c.1 := by
  obtain ⟨hrising, hlisted⟩ := hm
  constructor
  · intro hc
    obtain ⟨-, hne⟩ := hlisted c hc
    exact ⟨Memory.read_of_mem hrising hc, hne⟩
  · rintro ⟨hread, hne⟩
    have hmem : (c.1, Memory.read m c.1) ∈ m := Memory.mem_of_read_ne_unlisted (by rwa [hread])
    rwa [hread] at hmem

theorem Memory.wf.nodup {m : Memory} (hm : Memory.wf m) : m.Nodup :=
  hm.1.imp fun hlt heq => hlt.ne (congrArg Prod.fst heq)

/-- Settles O48: the two lists have the same cells, hence are permutations of each other, both of rising address. -/
theorem canonicalMemoryIsUnique : Obligations.CanonicalMemoryIsUnique := by
  intro m m' hm hm' hread
  have hcells : ∀ c, c ∈ m ↔ c ∈ m' := fun c => by
    rw [Memory.mem_iff_read hm, Memory.mem_iff_read hm', hread]
  have hperm : m.Perm m' := (List.perm_ext_iff_of_nodup hm.nodup hm'.nodup).2 hcells
  exact hperm.eq_of_pairwise (fun _ _ _ _ hlt hgt => absurd hlt hgt.asymm) hm.1 hm'.1

end Sys2Proof.Machine
